-- ==== Sys2Proof/Word.lean ====
section
/-! DEFINITION. The word types of the block: bytes, register widths, command words (30_encoding.md R64, R65) and
symbol words (R72), and one field reader (00_scope.md R11). -/

namespace Sys2Proof

/-- A pixel-buffer byte, and an 8-bit operand. -/
abbrev Byte := BitVec 8

/-- A 16-bit register field or operand. -/
abbrev Half := BitVec 16

/-- A 32-bit register value. -/
abbrev Word := BitVec 32

/-- A 64-bit command word (R64). -/
abbrev CmdWord := BitVec 64

/-- A 32-bit symbol word (R72). -/
abbrev SymWord := BitVec 32

/-- The field `w[lo + len - 1 : lo]` (R11). -/
abbrev field {n : Nat} (w : BitVec n) (lo len : Nat) : BitVec len := w.extractLsb' lo len

end Sys2Proof
end

