-- ==== Sys2Proof/Syntax.lean ====
section
/-! DEFINITION. The commands and internal operations of the block, one constructor per row of
spec/opcode_table.json (30_encoding.md R64 to R66). -/

namespace Sys2Proof

/-- The nineteen operations. The last six are internal (format FI): no host program can issue them (R67). -/
inductive Instr where
  /-- 0x01 CREATE (43_strip_device.md R113). -/
  | create (numLeds pin : Half)
  /-- 0x02 SET_PIXEL (R115). -/
  | setPixel (index : Half) (r g b : Byte)
  /-- 0x03 SET_ALL_PIXELS (R118). -/
  | setAllPixels (r g b : Byte)
  /-- 0x04 SET_COLOUR (R119). -/
  | setColour (colour : Byte)
  /-- 0x05 REFRESH (R117). -/
  | refresh
  /-- 0x06 CLEAR (R120). -/
  | clear
  /-- 0x07 DESTROY (R122). -/
  | destroy
  /-- 0x10 ENC_RESET (41_strip_encoder_fsm.md R92). -/
  | encReset
  /-- 0x20 CH_ENABLE (42_transmit_channel.md R97). -/
  | chEnable
  /-- 0x21 CH_TRANSMIT (R98). -/
  | chTransmit (loop : Byte)
  /-- 0x22 CH_WAIT (R99). -/
  | chWait (timeoutMs : Word)
  /-- 0x23 CH_DISABLE (R100). -/
  | chDisable
  /-- 0x24 CH_DELETE (R101). -/
  | chDelete
  /-- 0x80 ENCODE(f) (41_strip_encoder_fsm.md R89). -/
  | encode (f : Nat)
  /-- 0x81 BYTES_ENCODE(f) (40_symbol_encoder.md R84). -/
  | bytesEncode (f : Nat)
  /-- 0x82 COPY_ENCODE(f) (R86). -/
  | copyEncode (f : Nat)
  /-- 0x83 ENG_CHUNK (42_transmit_channel.md R102). -/
  | engChunk
  /-- 0x84 ENG_EMIT (R103). -/
  | engEmit
  /-- 0x85 ENG_DONE (R104). -/
  | engDone
  deriving DecidableEq, Repr

/-- True of the thirteen operations a host may issue, false of the six of format FI (30_encoding.md R64, R67). -/
def Instr.hostIssuable : Instr → Bool
  | .create _ _ => true
  | .setPixel _ _ _ _ => true
  | .setAllPixels _ _ _ => true
  | .setColour _ => true
  | .refresh => true
  | .clear => true
  | .destroy => true
  | .encReset => true
  | .chEnable => true
  | .chTransmit _ => true
  | .chWait _ => true
  | .chDisable => true
  | .chDelete => true
  | .encode _ => false
  | .bytesEncode _ => false
  | .copyEncode _ => false
  | .engChunk => false
  | .engEmit => false
  | .engDone => false

end Sys2Proof
end

