-- ==== Sys2Proof/Decode.lean ====
section
/-! DEFINITION. Decoding of 64-bit command words, total and rejecting by name (30_encoding.md R64 to R69), and the
encoder written from the same formats. -/

namespace Sys2Proof

/-- Why a word is illegal (30_encoding.md R67). -/
inductive IllegalWord where
  /-- The opcode is in no row of the opcode map (R66). -/
  | unassignedOpcode
  /-- A bit the format requires to be 0 is 1 (R64). -/
  | reservedBits
  /-- An FI opcode written by the host (R67). -/
  | internalOpcode
  deriving DecidableEq, Repr

/-- What decoding a word gives: "Command or Illegal" (R68). -/
inductive Decoded where
  | instr (i : Instr)
  | illegal (why : IllegalWord)
  deriving DecidableEq, Repr

/-- `i` if the must-be-0 bits of its format are 0, else illegal (R67). -/
def ifZero (z : Bool) (i : Instr) : Decoded := if z then .instr i else .illegal .reservedBits

/-- The row of spec/opcode_table.json that a word matches (R66), FI rows included; their budget is read from the
bits no format claims. DESIGN CHOICE (log 7). -/
def decodeRow (w : CmdWord) : Decoded :=
  match (field w 0 8).toNat with
  | 0x01 => ifZero (field w 40 24 == 0#24) (.create (field w 8 16) (field w 24 16))
  | 0x02 => ifZero (field w 48 16 == 0#16) (.setPixel (field w 8 16) (field w 24 8) (field w 32 8) (field w 40 8))
  | 0x03 => ifZero (field w 48 16 == 0#16 && field w 8 16 == 0#16)
      (.setAllPixels (field w 24 8) (field w 32 8) (field w 40 8))
  | 0x04 => ifZero (field w 16 48 == 0#48) (.setColour (field w 8 8))
  | 0x05 => ifZero (field w 8 56 == 0#56) .refresh
  | 0x06 => ifZero (field w 8 56 == 0#56) .clear
  | 0x07 => ifZero (field w 8 56 == 0#56) .destroy
  | 0x10 => ifZero (field w 8 56 == 0#56) .encReset
  | 0x20 => ifZero (field w 8 56 == 0#56) .chEnable
  | 0x21 => ifZero (field w 16 48 == 0#48) (.chTransmit (field w 8 8))
  | 0x22 => ifZero (field w 40 24 == 0#24) (.chWait (field w 8 32))
  | 0x23 => ifZero (field w 8 56 == 0#56) .chDisable
  | 0x24 => ifZero (field w 8 56 == 0#56) .chDelete
  | 0x80 => .instr (.encode (field w 8 56).toNat)
  | 0x81 => .instr (.bytesEncode (field w 8 56).toNat)
  | 0x82 => .instr (.copyEncode (field w 8 56).toNat)
  | 0x83 => .instr .engChunk
  | 0x84 => .instr .engEmit
  | 0x85 => .instr .engDone
  | _ => .illegal .unassignedOpcode

/-- A decoded row as the host may issue it: an FI row is illegal (R67). -/
def hostOnly : Decoded → Decoded
  | .instr i => if i.hostIssuable then .instr i else .illegal .internalOpcode
  | .illegal why => .illegal why

/-- `Decode` of 30_encoding.md R68: the reading of a word the host writes to CMD. -/
def decodeHost (w : CmdWord) : Decoded := hostOnly (decodeRow w)

/-- The instruction the decoder reads from the low `nbits` bits of `w`, every bit above them 0. A command is one
64-bit word (R69), so the table's bit numbers are the word's own. -/
def decodeTableWord (nbits w : Nat) : Option Instr :=
  match decodeRow (BitVec.ofNat 64 (w % 2 ^ nbits)) with
  | .instr i => some i
  | .illegal _ => none

/-- The operand `v` at the bits from `lo` on (R64). -/
def place {n : Nat} (v : BitVec n) (lo : Nat) : CmdWord := v.setWidth 64 <<< lo

/-- The word of an instruction (R64, R66): its opcode in [7:0], each operand in its field, 0 elsewhere. -/
def encode : Instr → CmdWord
  | .create n p => 0x01#64 ||| place n 8 ||| place p 24
  | .setPixel i r g b => 0x02#64 ||| place i 8 ||| place r 24 ||| place g 32 ||| place b 40
  | .setAllPixels r g b => 0x03#64 ||| place r 24 ||| place g 32 ||| place b 40
  | .setColour c => 0x04#64 ||| place c 8
  | .refresh => 0x05#64
  | .clear => 0x06#64
  | .destroy => 0x07#64
  | .encReset => 0x10#64
  | .chEnable => 0x20#64
  | .chTransmit l => 0x21#64 ||| place l 8
  | .chWait t => 0x22#64 ||| place t 8
  | .chDisable => 0x23#64
  | .chDelete => 0x24#64
  | .encode f => 0x80#64 ||| place (BitVec.ofNat 56 f) 8
  | .bytesEncode f => 0x81#64 ||| place (BitVec.ofNat 56 f) 8
  | .copyEncode f => 0x82#64 ||| place (BitVec.ofNat 56 f) 8
  | .engChunk => 0x83#64
  | .engEmit => 0x84#64
  | .engDone => 0x85#64

end Sys2Proof
end

