-- ==== Sys2Proof/Config.lean ====
section
/-! DEFINITION. What an implementation fixes (00_scope.md R9) and the free values (00_scope.md R12). -/

namespace Sys2Proof

/-- How many free slots each encoder invocation is given (00_scope.md R9, 92 D27). -/
inductive ChunkPolicy where
  | anyFree
  | fullBlock
  deriving DecidableEq, Repr, Inhabited

/-- A set of pin identifiers or selector values, given by the listed numbers or by all but the listed ones,
so that it is plain data. -/
structure IdSet where
  allBut : Bool
  ids : List Nat
  deriving DecidableEq, Repr, Inhabited

/-- Membership in an `IdSet`. -/
def IdSet.has (s : IdSet) (n : Nat) : Bool := s.allBut != s.ids.contains n

/-- The OPEN parameters of 00_scope.md R9, the arguments of the model (10_state.md R47). DESIGN CHOICE (log 2):
they are one record, which State carries unchanged. -/
structure Platform where
  /-- `MEM_BLOCK_DEFAULT`: the reset value of CFG_MEM_BLOCK_SYMBOLS (10_state.md R37). -/
  memBlockDefault : Half
  /-- `VALID_PINS`. -/
  validPins : IdSet
  /-- `BOUND_PINS`. -/
  boundPins : IdSet
  /-- `ALLOC_MAY_FAIL`. -/
  allocMayFail : Bool
  /-- `DRIVER_MAY_FAIL`. -/
  driverMayFail : Bool
  /-- `CHUNK_POLICY`. -/
  chunkPolicy : ChunkPolicy
  /-- `CLK_SRC_VALUES`. -/
  clkSrcValues : IdSet
  deriving DecidableEq, Repr, Inhabited

/-- The parameters of the platform at hand: OPEN in the spec, so a constant with no body. DESIGN CHOICE (log 2). -/
opaque Config.platform : Platform

/-- The free values: what a draw (00_scope.md R12) yields when State's `inputs` lists none. DESIGN CHOICE (log 3). -/
opaque Config.freeDraw : Nat → Nat

/-- `DEFAULT_RESOLUTION_HZ` (00_scope.md R9, 43_strip_device.md R111). -/
def Config.defaultResolutionHz : Word := 10000000#32

/-- `DEFAULT_QUEUE_DEPTH` (00_scope.md R9). -/
def Config.defaultQueueDepth : Byte := 4#8

/-- `DEFAULT_RESET_US` (00_scope.md R9). -/
def Config.defaultResetUs : Half := 50#16

end Sys2Proof
end

