-- ==== Sys2Proof/Machine/State.lean ====
section
/-! DEFINITION. The architectural state of the block (10_state.md), why a step can stop, and the state after power-on
reset (10_state.md R48, 70_reset_and_hazards.md R142). -/

namespace Sys2Proof.Machine

/-- The result codes (30_encoding.md R73). -/
inductive ResultCode where
  | ok
  | outOfMemory
  | invalidArgument
  | indexOutOfRange
  | hardwareBusy
  | timeout
  | deviceError
  deriving DecidableEq, Repr

/-- STATUS.DEV_STATE (10_state.md R29). -/
inductive DevState where
  | none
  | live
  | destroyed
  deriving DecidableEq, Repr

/-- STATUS.CH_STATE (10_state.md R30). -/
inductive ChState where
  | disabled
  | enabled
  | transmitting
  | deleted
  deriving DecidableEq, Repr

/-- STATUS.ENC_STATE (10_state.md R25, 41_strip_encoder_fsm.md R87). -/
inductive EncState where
  | sendPixels
  | sendReset
  deriving DecidableEq, Repr

/-- HOST_SUB (10_state.md R18): which sub-step of the current command comes next. `start` is 0, no sub-step begun;
the others are the sub-steps E, T, W and D of 43_strip_device.md R117. DESIGN CHOICE (log 10). -/
inductive HostSub where
  | start
  | enable
  | transmit
  | wait
  | disable
  deriving DecidableEq, Repr

/-- An event on the output pin (42_transmit_channel.md R106). -/
inductive WireEvent where
  | frameStart
  | sym (s : SymWord)
  | frameEnd
  | abort
  deriving DecidableEq, Repr

/-- The width of a bus access (20_memory.md R55). -/
inductive Width where
  | w8
  | w16
  | w32
  | w64
  deriving DecidableEq, Repr

/-- One access of the host program (10_state.md R18): `R` or `W` at a byte offset of the register space. A write's
value is the low `width` bits of `value` (log 21). -/
inductive Access where
  | read (width : Width) (offset : Nat)
  | write (width : Width) (offset : Nat) (value : BitVec 64)
  deriving DecidableEq, Repr

/-- The pixel buffer as cells (index, byte), indices strictly rising and no byte 0 listed; an unlisted byte reads 0
(10_state.md R20, R43, log 11). -/
abbrev Memory := List Host.Cell

/-- The CFG registers, each as wide as its fields (10_state.md R35 to R42). -/
structure CfgRegs where
  resolutionHz : Word
  memBlockSymbols : Half
  flags : BitVec 4
  clkSrc : Byte
  queueDepth : Byte
  resetUs : Half
  t0hNs : Half
  t0lNs : Half
  t1hNs : Half
  t1lNs : Half
  deriving DecidableEq, Repr

/-- The state that exists while DEV_STATE = LIVE (10_state.md R25 to R34, R44), the pixel buffer apart. -/
structure Device where
  chState : ChState
  encState : EncState
  encDone : Bool
  bytesCursor : Nat
  copyCursor : Nat
  /-- The memory block, oldest symbol first (R44). -/
  memblk : List SymWord
  symBit0 : SymWord
  symBit1 : SymWord
  symReset : SymWord
  numLeds : Half
  pin : Half
  resolutionHz : Word
  /-- The capacity K of the memory block (R33). -/
  memBlock : Half
  config : Word
  deriving DecidableEq, Repr

/-- How a device drives its pin: which pin, whether inverted, and in ticks of which resolution `RES` (10_state.md R33,
R34, 40_symbol_encoder.md R76). -/
structure PinDrive where
  pin : Half
  invert : Bool
  res : Word
  deriving DecidableEq, Repr

/-- From the wire event with index `pos` on, the block drives a pin so, or none (42_transmit_channel.md R107). -/
structure PinMark where
  pos : Nat
  drive : Option PinDrive
  deriving DecidableEq, Repr

/-- What is stored where no device exists: all zero. DESIGN CHOICE (log 12). -/
def Device.absent : Device where
  chState := .disabled
  encState := .sendPixels
  encDone := false
  bytesCursor := 0
  copyCursor := 0
  memblk := []
  symBit0 := 0#32
  symBit1 := 0#32
  symReset := 0#32
  numLeds := 0#16
  pin := 0#16
  resolutionHz := 0#32
  memBlock := 0#16
  config := 0#32

/-- The state of the block, of its host agent and of the draws still to come. -/
structure State where
  /-- The parameters (10_state.md R47), which no step changes. The model's own field (log 2). -/
  platform : Platform
  /-- The host program (10_state.md R18). -/
  program : List Access
  /-- HOST_POS (10_state.md R18). -/
  hostPos : Nat
  /-- HOST_SUB (10_state.md R18). -/
  hostSub : HostSub
  /-- STATUS.HOST_HELD (10_state.md R31). -/
  hostHeld : Bool
  /-- RESULT.CODE (10_state.md R22). -/
  result : ResultCode
  /-- FAULT.RACE (10_state.md R24). -/
  faultRace : Bool
  /-- FAULT.DANGLING (10_state.md R24). -/
  faultDangling : Bool
  /-- FAULT.REFUSED (10_state.md R24). -/
  faultRefused : Bool
  /-- The CFG registers (10_state.md R35). -/
  cfg : CfgRegs
  /-- STATUS.DEV_STATE (10_state.md R29). -/
  devState : DevState
  /-- The device registers, the encoder and the channel. -/
  dev : Device
  /-- PIXBUF (10_state.md R43). -/
  mem : Memory
  /-- The wire history, oldest event first (10_state.md R45). -/
  wire : List WireEvent
  /-- Where on the wire a device began or ceased to drive its pin, oldest first: the waveform of each event needs the
  inversion and the resolution of the device that sent it (42_transmit_channel.md R107). No step reads it. The model's own field (log 20). -/
  pinMarks : List PinMark
  /-- The values returned by the program's `R` accesses, oldest first (70_reset_and_hazards.md R156). -/
  reads : List Word
  /-- Draws still to come, next first. The model's own field (log 3). -/
  inputs : List Nat
  /-- How many draws came from `Config.freeDraw`. The model's own field (log 3). -/
  drawCount : Nat
  deriving DecidableEq, Repr

/-- Why the machine as a whole has no next step (log 5). None of them is a trap of the block, which has none
(60_exceptions.md R123). -/
inductive Fault where
  /-- Raised by `step` when the run has ended (70_reset_and_hazards.md R156). Safe: nothing happens after the end. -/
  | runEnded
  /-- Raised by `step` when no agent has an enabled step and a FAULT bit is set (60_exceptions.md R126, R128).
  Safe: such a run has no observation. -/
  | runFaulted
  /-- Raised by `step` when no agent has an enabled step although the host has neither finished nor stopped. No
  reachable state does this (60_exceptions.md R129). Safe: the machine stops. -/
  | deadlock
  deriving DecidableEq, Repr

/-- Why an operation has no meaning in a state. -/
inductive Refusal where
  /-- Raised by an arm of `exec` whose instruction has no meaning yet. Safe: the machine stops. -/
  | notModelled (mnemonic : String)
  /-- Raised by an internal operation in a state where its rule does not enable it, or where no encoder exists
  (42_transmit_channel.md R102 to R104, 60_exceptions.md R125). No step raises it. Safe (log 8). -/
  | notEnabled (mnemonic : String)
  /-- Raised by an internal encode operation that would push into a full memory block (10_state.md R44). No step
  raises it from a state that meets the invariant. Safe (log 8). -/
  | blockOverflow (mnemonic : String)
  deriving DecidableEq, Repr

/-- The CFG registers after power-on reset (10_state.md R36 to R42). -/
def CfgRegs.reset (p : Platform) : CfgRegs where
  resolutionHz := Config.defaultResolutionHz
  memBlockSymbols := p.memBlockDefault
  flags := 0#4
  clkSrc := 0#8
  queueDepth := Config.defaultQueueDepth
  resetUs := Config.defaultResetUs
  t0hNs := 300#16
  t0lNs := 900#16
  t1hNs := 900#16
  t1lNs := 300#16

/-- The machine after power-on reset on the platform `p` (10_state.md R48). -/
def State.resetOn (p : Platform) : State where
  platform := p
  program := []
  hostPos := 0
  hostSub := .start
  hostHeld := false
  result := .ok
  faultRace := false
  faultDangling := false
  faultRefused := false
  cfg := CfgRegs.reset p
  devState := .none
  dev := Device.absent
  mem := []
  wire := []
  pinMarks := []
  reads := []
  inputs := []
  drawCount := 0

/-- The machine right after reset (10_state.md R48, 70_reset_and_hazards.md R142), on the platform at hand. -/
def State.reset : State := State.resetOn Config.platform

end Sys2Proof.Machine
end

