-- ==== Sys2Proof/Machine/Flags.lean ====
section
/-! DEFINITION. The status words of the block: RESULT, STATUS, FAULT and DEV_CONFIG (10_state.md R22, R23, R24, R34).
The block has no arithmetic flags (R46). -/

namespace Sys2Proof.Machine

/-- The number of a result code (30_encoding.md R73). -/
def codeNumber : ResultCode → Byte
  | .ok => 0#8
  | .outOfMemory => 1#8
  | .invalidArgument => 2#8
  | .indexOutOfRange => 3#8
  | .hardwareBusy => 4#8
  | .timeout => 5#8
  | .deviceError => 6#8

/-- The RESULT register (10_state.md R22). -/
def resultWord (c : ResultCode) : Word := 0#24 ++ codeNumber c

/-- DEV_STATE as STATUS shows it (10_state.md R23). -/
def devStateBits : DevState → BitVec 2
  | .none => 0#2
  | .live => 1#2
  | .destroyed => 2#2

/-- CH_STATE as STATUS shows it (10_state.md R23). -/
def chStateBits : ChState → BitVec 2
  | .disabled => 0#2
  | .enabled => 1#2
  | .transmitting => 2#2
  | .deleted => 3#2

/-- ENC_STATE as STATUS shows it (10_state.md R23). -/
def encStateBit : EncState → BitVec 1
  | .sendPixels => 0#1
  | .sendReset => 1#1

/-- STATUS[5:2]: 0 while DEV_STATE is not LIVE (10_state.md R23). -/
def deviceStatusBits (s : State) : BitVec 4 :=
  if s.devState = .live then
    BitVec.ofBool s.dev.encDone ++ encStateBit s.dev.encState ++ chStateBits s.dev.chState
  else 0#4

/-- The STATUS register (10_state.md R23). -/
def statusWord (s : State) : Word :=
  0#25 ++ BitVec.ofBool s.hostHeld ++ deviceStatusBits s ++ devStateBits s.devState

/-- The FAULT register (10_state.md R24). -/
def faultWord (s : State) : Word :=
  0#29 ++ BitVec.ofBool s.faultRefused ++ BitVec.ofBool s.faultDangling ++ BitVec.ofBool s.faultRace

/-- FAULT = 0 (70_reset_and_hazards.md R156). -/
def State.noFault (s : State) : Bool := !s.faultRace && !s.faultDangling && !s.faultRefused

/-- CFG_FLAGS.PIXEL_FORMAT (10_state.md R38). -/
def pixelFormat (c : CfgRegs) : BitVec 2 := field c.flags 2 2

/-- The DEV_CONFIG word CREATE latches (10_state.md R34, 43_strip_device.md R113). -/
def devConfigWord (c : CfgRegs) : Word :=
  0#8 ++ c.clkSrc ++ c.queueDepth ++ 0#4 ++ 0#2 ++ field c.flags 0 2

/-- DEV_CONFIG.INVERT_OUT (10_state.md R34). -/
def Device.invertOut (d : Device) : Bool := d.config.getLsbD 1

/-- DEV_CONFIG.WITH_DMA (10_state.md R34), which no rule reads (42_transmit_channel.md R109). -/
def Device.withDma (d : Device) : Bool := d.config.getLsbD 0

end Sys2Proof.Machine
end

