-- ==== Sys2Proof/Machine/Ops.lean ====
section
/-! DEFINITION. The named operations every meaning is built from: pixel-buffer memory, draws, ending a command, raising
a model fault, refusing, and the updates of the channel, the encoder and the wire. -/

namespace Sys2Proof.Machine

/-! ## Memory (10_state.md R43, log 11) -/

/-- The byte at index `a`; an unlisted byte is 0 (10_state.md R20). -/
def Memory.read : Memory → Nat → Byte
  | [], _ => 0#8
  | (k, v) :: rest, a => if k = a then v else Memory.read rest a

/-- `m` with no cell at `a`. -/
def Memory.erase (m : Memory) (a : Nat) : Memory := m.filter fun c => c.1 != a

/-- `m` with the cell `(a, v)` put before the first larger index. -/
def Memory.insert : Memory → Nat → Byte → Memory
  | [], a, v => [(a, v)]
  | (k, u) :: rest, a, v => if a < k then (a, v) :: (k, u) :: rest else (k, u) :: Memory.insert rest a v

/-- `PIXBUF[a] <- v`; a zero byte is not listed. -/
def Memory.write (m : Memory) (a : Nat) (v : Byte) : Memory :=
  if v = 0#8 then Memory.erase m a else Memory.insert (Memory.erase m a) a v

/-- The bytes `vs` written at `a`, `a + 1`, and so on. -/
def Memory.writeBytes : Memory → Nat → List Byte → Memory
  | m, _, [] => m
  | m, a, v :: vs => Memory.writeBytes (Memory.write m a v) (a + 1) vs

/-- Every index of `m` is above `a`. -/
def Memory.above (a : Nat) : Memory → Bool
  | [] => true
  | (k, _) :: rest => decide (a < k) && Memory.above a rest

/-- The canonical form: indices strictly rising, no byte 0 listed. -/
def Memory.wf : Memory → Bool
  | [] => true
  | (k, v) :: rest => decide (v ≠ 0#8) && Memory.above k rest && Memory.wf rest

/-! ## Draws (00_scope.md R12, log 3) -/

/-- One draw: the next of `inputs`, else a free value. -/
def State.draw (s : State) : Nat × State :=
  match s.inputs with
  | d :: rest => (d, { s with inputs := rest })
  | [] => (Config.freeDraw s.drawCount, { s with drawCount := s.drawCount + 1 })

/-- `draw b : Bool`. -/
def State.drawBool (s : State) : Bool × State := (s.draw.1 % 2 == 1, s.draw.2)

/-- `draw n ∈ [1, k]`, for `k ≥ 1`. -/
def State.drawBudget (k : Nat) (s : State) : Nat × State := (1 + s.draw.1 % k, s.draw.2)

/-- `draw` of `n` bytes, in order. -/
def State.drawBytes : Nat → State → List Byte × State
  | 0, s => ([], s)
  | n + 1, s => (BitVec.ofNat 8 s.draw.1 :: (State.drawBytes n s.draw.2).1, (State.drawBytes n s.draw.2).2)

/-- The driver-failure draw: none when DRIVER_MAY_FAIL is false (92 D19). -/
def State.driverFails (s : State) : Bool × State :=
  if s.platform.driverMayFail then s.drawBool else (false, s)

/-- The allocation-failure draw of CREATE (92 D18). -/
def State.allocFails (s : State) : Bool × State :=
  if s.platform.allocMayFail then s.drawBool else (false, s)

/-! ## Ending a command, faults, refusals (60_exceptions.md R124, R126, R128) -/

/-- `return CODE` (60_exceptions.md R124): RESULT is written, HOST_SUB cleared, HOST_POS advanced. -/
def State.returnCode (s : State) (c : ResultCode) : State :=
  { s with result := c, hostSub := .start, hostPos := s.hostPos + 1 }

/-- `raise Fault(DANGLING)` (60_exceptions.md R126): the sticky bit and nothing else; the host stops because of it. -/
def State.raiseDangling (s : State) : State := { s with faultDangling := true }

/-- `refuse(reason)` (60_exceptions.md R128): the sticky bit and nothing else; the host stops because of it. -/
def State.refuse (s : State) : State := { s with faultRefused := true }

/-- The end of a register access: HOST_POS advances by 1 (10_state.md R18). -/
def State.finishAccess (s : State) : State := { s with hostPos := s.hostPos + 1 }

/-! ## Updates of the device -/

/-- CH_STATE (10_state.md R30). -/
def State.setChState (s : State) (c : ChState) : State := { s with dev := { s.dev with chState := c } }

/-- ENC_STATE (10_state.md R25). -/
def State.setEncState (s : State) (e : EncState) : State := { s with dev := { s.dev with encState := e } }

/-- ENC_DONE (10_state.md R28). -/
def State.setEncDone (s : State) (b : Bool) : State := { s with dev := { s.dev with encDone := b } }

/-- BYTES_CURSOR (10_state.md R26). -/
def State.setBytesCursor (s : State) (n : Nat) : State := { s with dev := { s.dev with bytesCursor := n } }

/-- COPY_CURSOR (10_state.md R27). -/
def State.setCopyCursor (s : State) (n : Nat) : State := { s with dev := { s.dev with copyCursor := n } }

/-- The contents of the memory block (10_state.md R44). -/
def State.setMemblk (s : State) (b : List SymWord) : State := { s with dev := { s.dev with memblk := b } }

/-- `MemBlockPush` of several symbols in order (00_scope.md R12). -/
def State.pushSyms (s : State) (ws : List SymWord) : State := s.setMemblk (s.dev.memblk ++ ws)

/-- `Wire <- Wire ++ [ev]` (00_scope.md R12). -/
def State.emit (s : State) (e : WireEvent) : State := { s with wire := s.wire ++ [e] }

/-- How the block drives its pin now: as the LIVE device is configured, else not at all (42_transmit_channel.md R107). -/
def State.pinDrive (s : State) : Option PinDrive :=
  if s.devState = .live then some ⟨s.dev.pin, s.dev.invertOut, s.dev.resolutionHz⟩ else none

/-- The drive of the pin is recorded at the wire's end, after a device came or went (42_transmit_channel.md R107,
log 20). -/
def State.markPin (s : State) : State := { s with pinMarks := s.pinMarks ++ [⟨s.wire.length, s.pinDrive⟩] }

/-- HOST_HELD (10_state.md R31). -/
def State.setHeld (s : State) (b : Bool) : State := { s with hostHeld := b }

/-- HOST_SUB (10_state.md R18). -/
def State.setSub (s : State) (n : HostSub) : State := { s with hostSub := n }

/-- `FAULT.RACE <- 1` if a transaction is in flight (20_memory.md R59). -/
def State.noteRace (s : State) : State :=
  { s with faultRace := s.faultRace || s.dev.chState == .transmitting }

/-- Bytes written to the pixel buffer from index `a` on. -/
def State.writePixels (s : State) (a : Nat) (vs : List Byte) : State :=
  { s with mem := Memory.writeBytes s.mem a vs }

/-- The value returned by an `R` access is recorded (70_reset_and_hazards.md R156). -/
def State.logRead (s : State) (v : Word) : State := { s with reads := s.reads ++ [v] }

/-! ## Command results -/

/-- How a command or a sub-step leaves off: with a result, with Fault(DANGLING), or held. -/
inductive CmdResult where
  | done (c : ResultCode) (s : State)
  | dangling (s : State)
  | hold (s : State)

/-- The null-handle and destroyed-device checks every command but CREATE begins with (42_transmit_channel.md R95,
60_exceptions.md R131). -/
def withDevice (s : State) (k : CmdResult) : CmdResult :=
  match s.devState with
  | .none => .done .invalidArgument s
  | .destroyed => .dangling s
  | .live => k

/-- The deleted-channel check of the channel commands (42_transmit_channel.md R95). -/
def withChannel (s : State) (k : CmdResult) : CmdResult :=
  if s.dev.chState = .deleted then .dangling s else k

/-- The last guard of a command: the driver-failure draw, a failure changing nothing (92 D19). -/
def withDriver (s : State) (k : State → CmdResult) : CmdResult :=
  if s.driverFails.1 then .done .deviceError s.driverFails.2 else k s.driverFails.2

/-- A whole command: its result is written to RESULT. -/
def finish : CmdResult → Host.Outcome State Fault Refusal
  | .done c s => .next (s.returnCode c)
  | .dangling s => .next s.raiseDangling
  | .hold s => .next s

/-- A sub-step of a multi-step command (43_strip_device.md R117): OK goes on to the sub-step `n`, any other result
ends the command. -/
def continueTo (n : HostSub) : CmdResult → Host.Outcome State Fault Refusal
  | .done .ok s => .next (s.setSub n)
  | .done c s => .next (s.returnCode c)
  | .dangling s => .next s.raiseDangling
  | .hold s => .next s

end Sys2Proof.Machine
end

