-- ==== Sys2Proof/Machine/Symbols.lean ====
section
/-! DEFINITION. Symbol words, tick counts and the symbol sequences of bytes and frames (30_encoding.md R72,
40_symbol_encoder.md R76 to R83, 43_strip_device.md R111). -/

namespace Sys2Proof.Machine

/-- `MAX_DURATION_TICKS` (00_scope.md R9): the width of a duration field. PRESUMED (log 16). -/
def maxDurationTicks : Nat := 32767

/-- `Sym(level0, duration0, level1, duration1)` as a word (30_encoding.md R72). PRESUMED layout (log 18). -/
def mkSym (level0 : Bool) (duration0 : Nat) (level1 : Bool) (duration1 : Nat) : SymWord :=
  BitVec.ofBool level1 ++ BitVec.ofNat 15 duration1 ++ BitVec.ofBool level0 ++ BitVec.ofNat 15 duration0

/-- The first level of a symbol. -/
def symLevel0 (w : SymWord) : Bool := w.getLsbD 15

/-- The first duration of a symbol, in ticks. -/
def symDuration0 (w : SymWord) : Nat := (field w 0 15).toNat

/-- The second level of a symbol. -/
def symLevel1 (w : SymWord) : Bool := w.getLsbD 31

/-- The second duration of a symbol, in ticks. -/
def symDuration1 (w : SymWord) : Nat := (field w 16 15).toNat

/-- `Ticks(t)` at resolution `res`: `t` nanoseconds in ticks, to nearest with ties upward (40_symbol_encoder.md R77). -/
def ticks (res t : Nat) : Nat := (t * res + 500000000) / 1000000000

/-- The reset half `h` at resolution `res`, both divisions truncating (40_symbol_encoder.md R80). -/
def resetHalf (res us : Nat) : Nat := us * res / 1000000 / 2

/-- `EffRes()` (43_strip_device.md R111). -/
def effRes (c : CfgRegs) : Word := if c.resolutionHz = 0#32 then Config.defaultResolutionHz else c.resolutionHz

/-- The five durations CREATE checks: T0H, T0L, T1H, T1L and the reset half (43_strip_device.md R113). -/
def durations (c : CfgRegs) : List Nat :=
  let res := (effRes c).toNat
  [ticks res c.t0hNs.toNat, ticks res c.t0lNs.toNat, ticks res c.t1hNs.toNat, ticks res c.t1lNs.toNat,
    resetHalf res c.resetUs.toNat]

/-- A duration a symbol half can hold (40_symbol_encoder.md R81). -/
def durationOk (d : Nat) : Bool := decide (1 ≤ d) && decide (d ≤ maxDurationTicks)

/-- SYM_BIT0 as CREATE computes it (40_symbol_encoder.md R79). -/
def bit0Sym (c : CfgRegs) : SymWord :=
  mkSym true (ticks (effRes c).toNat c.t0hNs.toNat) false (ticks (effRes c).toNat c.t0lNs.toNat)

/-- SYM_BIT1 as CREATE computes it (40_symbol_encoder.md R79). -/
def bit1Sym (c : CfgRegs) : SymWord :=
  mkSym true (ticks (effRes c).toNat c.t1hNs.toNat) false (ticks (effRes c).toNat c.t1lNs.toNat)

/-- SYM_RESET as CREATE computes it (40_symbol_encoder.md R80). -/
def resetSym (c : CfgRegs) : SymWord :=
  mkSym false (resetHalf (effRes c).toNat c.resetUs.toNat) false (resetHalf (effRes c).toNat c.resetUs.toNat)

/-- `L`, the length of the pixel buffer in bytes (10_state.md R43). -/
def Device.bufferLen (d : Device) : Nat := 3 * d.numLeds.toNat

/-- `8 · L`, the number of bit symbols of a frame (40_symbol_encoder.md R84). -/
def Device.bitCount (d : Device) : Nat := 8 * d.bufferLen

/-- `BitSym(b)` (40_symbol_encoder.md R83). -/
def bitSym (d : Device) (b : Bool) : SymWord := if b then d.symBit1 else d.symBit0

/-- `ByteSyms(v)`: bit 7 first (40_symbol_encoder.md R83). -/
def byteSyms (d : Device) (v : Byte) : List SymWord :=
  [bitSym d (v.getLsbD 7), bitSym d (v.getLsbD 6), bitSym d (v.getLsbD 5), bitSym d (v.getLsbD 4),
    bitSym d (v.getLsbD 3), bitSym d (v.getLsbD 2), bitSym d (v.getLsbD 1), bitSym d (v.getLsbD 0)]

/-- `ByteSyms` of the `n` buffer bytes from index `j` on. -/
def bytesSyms (d : Device) (m : Memory) : Nat → Nat → List SymWord
  | _, 0 => []
  | j, n + 1 => byteSyms d (Memory.read m j) ++ bytesSyms d m (j + 1) n

/-- `FrameSyms(P)` of the device's buffer (40_symbol_encoder.md R83). -/
def frameSyms (d : Device) (m : Memory) : List SymWord := bytesSyms d m 0 d.bufferLen ++ [d.symReset]

/-- The bit symbol at cursor `c`: bit 7 − (c mod 8) of byte ⌊c / 8⌋ (10_state.md R26, 40_symbol_encoder.md R84). -/
def symAt (d : Device) (m : Memory) (c : Nat) : SymWord :=
  bitSym d ((Memory.read m (c / 8)).getLsbD (7 - c % 8))

/-- The `n` bit symbols from cursor `c` on. -/
def symsFrom (d : Device) (m : Memory) : Nat → Nat → List SymWord
  | _, 0 => []
  | c, n + 1 => symAt d m c :: symsFrom d m (c + 1) n

end Sys2Proof.Machine
end

