-- ==== Sys2Proof/Machine/Encoder.lean ====
section
/-! DEFINITION. The sub-encoders and the strip encoder: BYTES_ENCODE, COPY_ENCODE, ENCODE and ENC_RESET
(40_symbol_encoder.md R84, R86, 41_strip_encoder_fsm.md R89, R92). -/

namespace Sys2Proof.Machine

/-- The result of an encode step (40_symbol_encoder.md R84). It is returned and never stored (10_state.md R46). -/
inductive EncResult where
  | complete
  | memFull
  deriving DecidableEq, Repr

/-- What an encode step returns: the symbols it pushed (`n` of the rules is their number), its result and the state. -/
structure EncodeStep where
  pushed : List SymWord
  result : EncResult
  state : State

/-- BytesEncode(f) (40_symbol_encoder.md R84): as many of the symbols left as the budget allows. -/
def bytesEncode (f : Nat) (s : State) : EncodeStep :=
  let n := min f (s.dev.bitCount - s.dev.bytesCursor)
  let ws := symsFrom s.dev s.mem s.dev.bytesCursor n
  if s.dev.bitCount ≤ s.dev.bytesCursor + n then ⟨ws, .complete, (s.pushSyms ws).setBytesCursor 0⟩
  else ⟨ws, .memFull, (s.pushSyms ws).setBytesCursor (s.dev.bytesCursor + n)⟩

/-- CopyEncode(f) (40_symbol_encoder.md R86); the reset code is the one symbol SYM_RESET. -/
def copyEncode (f : Nat) (s : State) : EncodeStep :=
  let n := min f (1 - s.dev.copyCursor)
  let ws := List.replicate n s.dev.symReset
  if 1 ≤ s.dev.copyCursor + n then ⟨ws, .complete, (s.pushSyms ws).setCopyCursor 0⟩
  else ⟨ws, .memFull, (s.pushSyms ws).setCopyCursor (s.dev.copyCursor + n)⟩

/-- The SEND_RESET part of Encode, with budget `f` left and the symbols `done` pushed before it in this call. -/
def encodeReset (f : Nat) (before : List SymWord) (s : State) : EncodeStep :=
  let c := copyEncode f s
  match c.result with
  | .memFull => ⟨before ++ c.pushed, .memFull, c.state⟩
  | .complete => ⟨before ++ c.pushed, .complete, c.state.setEncState .sendPixels⟩

/-- Encode(f) (41_strip_encoder_fsm.md R88, R89): the pixels, then in the same call the reset symbol. -/
def encodeChunk (f : Nat) (s : State) : EncodeStep :=
  match s.dev.encState with
  | .sendReset => encodeReset f [] s
  | .sendPixels =>
    let b := bytesEncode f s
    match b.result with
    | .memFull => b
    | .complete => encodeReset (f - b.pushed.length) b.pushed (b.state.setEncState .sendReset)

/-- An internal encode operation asked for on its own: it needs an encoder, and room for what it pushes (log 8). -/
def runEncode (name : String) (e : EncodeStep) (s : State) : Host.Outcome State Fault Refusal :=
  if s.devState = .live then
    if e.state.dev.memblk.length ≤ s.dev.memBlock.toNat then .next e.state else .refused (.blockOverflow name)
  else .refused (.notEnabled name)

/-- ENCODE(f) (41_strip_encoder_fsm.md R89). -/
def execEncode (f : Nat) (s : State) : Host.Outcome State Fault Refusal := runEncode "ENCODE" (encodeChunk f s) s

/-- BYTES_ENCODE(f) (40_symbol_encoder.md R84). -/
def execBytesEncode (f : Nat) (s : State) : Host.Outcome State Fault Refusal :=
  runEncode "BYTES_ENCODE" (bytesEncode f s) s

/-- COPY_ENCODE(f) (40_symbol_encoder.md R86). -/
def execCopyEncode (f : Nat) (s : State) : Host.Outcome State Fault Refusal :=
  runEncode "COPY_ENCODE" (copyEncode f s) s

/-- ENC_RESET (41_strip_encoder_fsm.md R92). -/
def execEncReset (s : State) : Host.Outcome State Fault Refusal :=
  finish <| withDevice s <|
    if s.dev.chState = .transmitting then .done .hardwareBusy s
    else .done .ok (((s.setBytesCursor 0).setCopyCursor 0).setEncState .sendPixels)

end Sys2Proof.Machine
end

