-- ==== Sys2Proof/Machine/Engine.lean ====
section
/-! DEFINITION. The channel engine's steps ENG_CHUNK, ENG_EMIT and ENG_DONE and when each is enabled
(42_transmit_channel.md R102 to R105). -/

namespace Sys2Proof.Machine

/-- A transaction is in flight; CH_STATE exists only while LIVE (10_state.md R23, R30). -/
def State.transmitting (s : State) : Bool := s.devState == .live && s.dev.chState == .transmitting

/-- `K − MEMBLK_COUNT` (40_symbol_encoder.md R78). -/
def Device.freeSlots (d : Device) : Nat := d.memBlock.toNat - d.memblk.length

/-- The memory block can take a chunk under the policy: empty under FULL_BLOCK, not full under ANY_FREE
(42_transmit_channel.md R102). The first disjunct holds under both. -/
def State.roomForChunk (s : State) : Bool :=
  (s.dev.memblk.isEmpty && (decide (0 < s.dev.memBlock.toNat) || s.platform.chunkPolicy == .fullBlock)) ||
    (s.platform.chunkPolicy == .anyFree && decide (s.dev.memblk.length < s.dev.memBlock.toNat))

/-- "Enabled when" of ENG_CHUNK (42_transmit_channel.md R102). -/
def State.chunkEnabled (s : State) : Bool := s.transmitting && !s.dev.encDone && s.roomForChunk

/-- "Enabled when" of ENG_EMIT (42_transmit_channel.md R103). -/
def State.emitEnabled (s : State) : Bool := s.transmitting && !s.dev.memblk.isEmpty

/-- "Enabled when" of ENG_DONE (42_transmit_channel.md R104). -/
def State.doneEnabled (s : State) : Bool := s.transmitting && s.dev.encDone && s.dev.memblk.isEmpty

/-- The budget of a chunk (42_transmit_channel.md R102): K, or a draw among the free slots. -/
def State.chunkBudget (s : State) : Nat × State :=
  match s.platform.chunkPolicy with
  | .fullBlock => (s.dev.memBlock.toNat, s)
  | .anyFree => s.drawBudget s.dev.freeSlots

/-- EngChunk() after its budget: ENCODE, and ENC_DONE if the frame is encoded (42_transmit_channel.md R102). -/
def runChunk (f : Nat) (s : State) : State :=
  match (encodeChunk f s).result with
  | .complete => (encodeChunk f s).state.setEncDone true
  | .memFull => (encodeChunk f s).state

/-- EngEmit(): the head of the memory block goes onto the wire (42_transmit_channel.md R103). -/
def runEmit (s : State) : State :=
  match s.dev.memblk with
  | [] => s
  | w :: rest => (s.setMemblk rest).emit (.sym w)

/-- EngDone() (42_transmit_channel.md R104). -/
def runDone (s : State) : State := ((s.setChState .enabled).setEncDone false).emit .frameEnd

/-- ENG_CHUNK (42_transmit_channel.md R102). -/
def execEngChunk (s : State) : Host.Outcome State Fault Refusal :=
  if s.chunkEnabled then .next (runChunk s.chunkBudget.1 s.chunkBudget.2) else .refused (.notEnabled "ENG_CHUNK")

/-- ENG_EMIT (42_transmit_channel.md R103). -/
def execEngEmit (s : State) : Host.Outcome State Fault Refusal :=
  if s.emitEnabled then .next (runEmit s) else .refused (.notEnabled "ENG_EMIT")

/-- ENG_DONE (42_transmit_channel.md R104). -/
def execEngDone (s : State) : Host.Outcome State Fault Refusal :=
  if s.doneEnabled then .next (runDone s) else .refused (.notEnabled "ENG_DONE")

end Sys2Proof.Machine
end

