-- ==== Sys2Proof/Machine/Operands.lean ====
section
/-! DEFINITION. What the operands of commands and accesses denote: the palette, pixel bytes, the wait timeout, and the
registers behind the offsets of the register space. -/

namespace Sys2Proof.Machine

/-- The (R, G, B) palette indexed by COLOUR; none for 6 to 255 (43_strip_device.md R112, 30_encoding.md R74). RED and
AQUA are sourced, the rest is general knowledge: PRESUMED (log 17). -/
def palette (c : Byte) : Option (Byte × Byte × Byte) :=
  match c.toNat with
  | 0 => some (255#8, 0#8, 0#8)
  | 1 => some (0#8, 255#8, 0#8)
  | 2 => some (0#8, 0#8, 255#8)
  | 3 => some (255#8, 255#8, 0#8)
  | 4 => some (0#8, 255#8, 255#8)
  | 5 => some (255#8, 0#8, 255#8)
  | _ => none

/-- The bytes of one pixel in buffer order: Green, Red, Blue (20_memory.md R52). -/
def pixelBytes (r g b : Byte) : List Byte := [g, r, b]

/-- The bytes of `n` pixels of one colour (43_strip_device.md R116). -/
def fillBytes (n : Nat) (r g b : Byte) : List Byte :=
  match n with
  | 0 => []
  | n + 1 => pixelBytes r g b ++ fillBytes n r g b

/-- The TIMEOUT_MS value that means infinite (30_encoding.md R65). -/
def infiniteTimeout : Word := 0xFFFFFFFF#32

/-- The registers of the map (10_state.md R19). -/
inductive Reg where
  | cmd
  | result
  | status
  | fault
  | bytesCursor
  | copyCursor
  | memblkCount
  | symBit0
  | symBit1
  | symReset
  | devNumLeds
  | devPin
  | devResolutionHz
  | devMemBlock
  | devConfig
  | cfgResolutionHz
  | cfgMemBlockSymbols
  | cfgFlags
  | cfgClkSrc
  | cfgQueueDepth
  | cfgResetUs
  | cfgT0hNs
  | cfgT0lNs
  | cfgT1hNs
  | cfgT1lNs
  | pixbuf (j : Nat)
  deriving DecidableEq, Repr

/-- The register at a byte offset (10_state.md R19); none at an unassigned or misaligned one. The PIXBUF window has no
upper end, since reads beyond the buffer give 0 (10_state.md R20): DEDUCED (log 15). -/
def regAt (offset : Nat) : Option Reg :=
  match offset with
  | 0x000 => some .cmd
  | 0x008 => some .result
  | 0x00C => some .status
  | 0x010 => some .fault
  | 0x014 => some .bytesCursor
  | 0x018 => some .copyCursor
  | 0x01C => some .memblkCount
  | 0x020 => some .symBit0
  | 0x024 => some .symBit1
  | 0x028 => some .symReset
  | 0x02C => some .devNumLeds
  | 0x030 => some .devPin
  | 0x034 => some .devResolutionHz
  | 0x038 => some .devMemBlock
  | 0x03C => some .devConfig
  | 0x040 => some .cfgResolutionHz
  | 0x044 => some .cfgMemBlockSymbols
  | 0x048 => some .cfgFlags
  | 0x04C => some .cfgClkSrc
  | 0x050 => some .cfgQueueDepth
  | 0x054 => some .cfgResetUs
  | 0x058 => some .cfgT0hNs
  | 0x05C => some .cfgT0lNs
  | 0x060 => some .cfgT1hNs
  | 0x064 => some .cfgT1lNs
  | n => if 0x1000 ≤ n then some (.pixbuf (n - 0x1000)) else none

/-- The one width a register is accessed at (20_memory.md R55). -/
def regWidth : Reg → Width
  | .cmd => .w64
  | .pixbuf _ => .w8
  | _ => .w32

/-- True of every register but CMD, which is write-only (10_state.md R19). -/
def regReadable : Reg → Bool
  | .cmd => false
  | _ => true

/-- True of a register of scope "device" (10_state.md R19). -/
def regIsDevice : Reg → Bool
  | .bytesCursor => true
  | .copyCursor => true
  | .memblkCount => true
  | .symBit0 => true
  | .symBit1 => true
  | .symReset => true
  | .devNumLeds => true
  | .devPin => true
  | .devResolutionHz => true
  | .devMemBlock => true
  | .devConfig => true
  | .pixbuf _ => true
  | _ => false

end Sys2Proof.Machine
end

