-- ==== Sys2Proof/Machine/Channel.lean ====
section
/-! DEFINITION. The channel commands CH_ENABLE, CH_TRANSMIT, CH_WAIT, CH_DISABLE and CH_DELETE
(42_transmit_channel.md R94 to R101), each first as an operation that REFRESH also uses as a sub-step. -/

namespace Sys2Proof.Machine

/-- ChEnable() (42_transmit_channel.md R97). -/
def chEnable (s : State) : CmdResult :=
  withDevice s <| withChannel s <|
    if s.dev.chState = .disabled then withDriver s fun t => .done .ok (t.setChState .enabled)
    else .done .deviceError s

/-- The commit of ChTransmit: an empty block, ENC_DONE clear, FrameStart on the wire (42_transmit_channel.md R98). -/
def State.startFrame (s : State) : State :=
  (((s.setMemblk []).setEncDone false).emit .frameStart).setChState .transmitting

/-- ChTransmit(LOOP) (42_transmit_channel.md R96, R98). -/
def chTransmit (loop : Byte) (s : State) : CmdResult :=
  withDevice s <|
    if loop = 0#8 then withChannel s <|
      match s.dev.chState with
      | .transmitting => .done .hardwareBusy s
      | .enabled => withDriver s fun t => .done .ok t.startFrame
      | .disabled => .done .deviceError s
      | .deleted => .dangling s
    else .done .invalidArgument s

/-- The steps of a held wait (42_transmit_channel.md R99): WAKE once the channel has left TRANSMITTING, EXPIRE before
that if the timeout is finite; otherwise the host stays held. -/
def heldWait (timeout : Word) (s : State) : CmdResult :=
  if s.dev.chState = .transmitting then
    if timeout = infiniteTimeout then .hold s else .done .timeout (s.setHeld false)
  else .done .ok (s.setHeld false)

/-- ChWait(T) (42_transmit_channel.md R99). -/
def chWait (timeout : Word) (s : State) : CmdResult :=
  if s.hostHeld then heldWait timeout s
  else withDevice s <| withChannel s <|
    if s.dev.chState = .transmitting then
      if timeout = 0#32 then .done .timeout s else .hold (s.setHeld true)
    else .done .ok s

/-- The abort of a transaction mid-frame (42_transmit_channel.md R100); the encoder keeps its position (R93). -/
def State.abortFrame (s : State) : State :=
  if s.dev.chState = .transmitting then ((s.setMemblk []).setEncDone false).emit .abort else s

/-- ChDisable() (42_transmit_channel.md R100). -/
def chDisable (s : State) : CmdResult :=
  withDevice s <| withChannel s <|
    if s.dev.chState = .disabled then .done .deviceError s
    else withDriver s fun t => .done .ok (t.abortFrame.setChState .disabled)

/-- ChDelete() (42_transmit_channel.md R101). -/
def chDelete (s : State) : CmdResult :=
  withDevice s <| withChannel s <|
    if s.dev.chState = .disabled then withDriver s fun t => .done .ok (t.setChState .deleted)
    else .done .deviceError s

/-- CH_ENABLE (42_transmit_channel.md R97). -/
def execChEnable (s : State) : Host.Outcome State Fault Refusal := finish (chEnable s)

/-- CH_TRANSMIT(LOOP) (42_transmit_channel.md R98). -/
def execChTransmit (loop : Byte) (s : State) : Host.Outcome State Fault Refusal := finish (chTransmit loop s)

/-- CH_WAIT(TIMEOUT_MS) (42_transmit_channel.md R99). -/
def execChWait (timeout : Word) (s : State) : Host.Outcome State Fault Refusal := finish (chWait timeout s)

/-- CH_DISABLE (42_transmit_channel.md R100). -/
def execChDisable (s : State) : Host.Outcome State Fault Refusal := finish (chDisable s)

/-- CH_DELETE (42_transmit_channel.md R101). -/
def execChDelete (s : State) : Host.Outcome State Fault Refusal := finish (chDelete s)

end Sys2Proof.Machine
end

