-- ==== Sys2Proof/Machine/Strip.lean ====
section
/-! DEFINITION. The strip-device commands CREATE, SET_PIXEL, SET_ALL_PIXELS, SET_COLOUR, REFRESH, CLEAR and DESTROY
(43_strip_device.md R111 to R122). -/

namespace Sys2Proof.Machine

/-- What CREATE's argument checks say (43_strip_device.md R113). -/
inductive CreateCheck where
  | accept
  | reject
  | refuseRgbw
  deriving DecidableEq, Repr

/-- The checks of CREATE in the order of 43_strip_device.md R113; "reject" is INVALID_ARGUMENT, and PIXEL_FORMAT 1 is
refused (R114). -/
def createCheck (numLeds pin : Half) (s : State) : CreateCheck :=
  if s.devState = .live then .reject
  else if numLeds = 0#16 then .reject
  else if !s.platform.validPins.has pin.toNat then .reject
  else if s.platform.boundPins.has pin.toNat then .reject
  else if pixelFormat s.cfg = 1#2 then .refuseRgbw
  else if 2#2 ≤ pixelFormat s.cfg then .reject
  else if s.cfg.memBlockSymbols = 0#16 ∨ s.cfg.queueDepth = 0#8 then .reject
  else if !s.platform.clkSrcValues.has s.cfg.clkSrc.toNat then .reject
  else if !(durations s.cfg).all durationOk then .reject
  else .accept

/-- The device registers CREATE commits (43_strip_device.md R113, 10_state.md R48). -/
def createdDevice (numLeds pin : Half) (c : CfgRegs) : Device where
  chState := .disabled
  encState := .sendPixels
  encDone := false
  bytesCursor := 0
  copyCursor := 0
  memblk := []
  symBit0 := bit0Sym c
  symBit1 := bit1Sym c
  symReset := resetSym c
  numLeds := numLeds
  pin := pin
  resolutionHz := effRes c
  memBlock := c.memBlockSymbols
  config := devConfigWord c

/-- CREATE's commit: the device, and a pixel buffer of drawn bytes (43_strip_device.md R113, 92 D16). The device drives
its pin from here on (42_transmit_channel.md R110). -/
def State.createDevice (s : State) (numLeds pin : Half) : State :=
  { (s.drawBytes (3 * numLeds.toNat)).2 with
    dev := createdDevice numLeds pin s.cfg
    mem := Memory.writeBytes [] 0 (s.drawBytes (3 * numLeds.toNat)).1
    devState := .live : State }.markPin

/-- CREATE(NUM_LEDS, PIN) (43_strip_device.md R113). -/
def execCreate (numLeds pin : Half) (s : State) : Host.Outcome State Fault Refusal :=
  match createCheck numLeds pin s with
  | .reject => .next (s.returnCode .invalidArgument)
  | .refuseRgbw => .next s.refuse
  | .accept =>
    if s.allocFails.1 then .next (s.allocFails.2.returnCode .outOfMemory)
    else .next ((s.allocFails.2.createDevice numLeds pin).returnCode .ok)

/-- SetPixel(i, r, g, b) (43_strip_device.md R115). -/
def execSetPixel (index : Half) (r g b : Byte) (s : State) : Host.Outcome State Fault Refusal :=
  finish <| withDevice s <|
    if index < s.dev.numLeds then .done .ok (s.noteRace.writePixels (3 * index.toNat) (pixelBytes r g b))
    else .done .indexOutOfRange s

/-- Fill(r, g, b) (43_strip_device.md R116). -/
def State.fill (s : State) (r g b : Byte) : State :=
  s.noteRace.writePixels 0 (fillBytes s.dev.numLeds.toNat r g b)

/-- The zeroing of CLEAR (43_strip_device.md R120). -/
def State.zeroPixels (s : State) : State :=
  s.noteRace.writePixels 0 (List.replicate s.dev.bufferLen 0#8)

/-- RefreshSteps() from the sub-step HOST_SUB names (43_strip_device.md R117). At `start` the first sub-step is E. -/
def refreshStep (s : State) : Host.Outcome State Fault Refusal :=
  match s.hostSub with
  | .start => continueTo .transmit (chEnable s)
  | .enable => continueTo .transmit (chEnable s)
  | .transmit => continueTo .wait (chTransmit 0#8 s)
  | .wait => continueTo .disable (chWait infiniteTimeout s)
  | .disable => finish (chDisable s)

/-- A command that writes the pixels with `paint` as its first sub-step and then refreshes (43_strip_device.md R118,
R119, R120). -/
def paintThenRefresh (paint : CmdResult) (s : State) : Host.Outcome State Fault Refusal :=
  match s.hostSub with
  | .start => continueTo .enable paint
  | _ => refreshStep s

/-- REFRESH (43_strip_device.md R117). -/
def execRefresh (s : State) : Host.Outcome State Fault Refusal := refreshStep s

/-- SET_ALL_PIXELS(R, G, B) (43_strip_device.md R118). -/
def execSetAllPixels (r g b : Byte) (s : State) : Host.Outcome State Fault Refusal :=
  paintThenRefresh (withDevice s (.done .ok (s.fill r g b))) s

/-- The checks and the fill of SET_COLOUR (43_strip_device.md R119). -/
def paintColour (colour : Byte) (s : State) : CmdResult :=
  withDevice s <|
    match palette colour with
    | some (r, g, b) => .done .ok (s.fill r g b)
    | none => .done .invalidArgument s

/-- SET_COLOUR(COLOUR) (43_strip_device.md R119). -/
def execSetColour (colour : Byte) (s : State) : Host.Outcome State Fault Refusal :=
  paintThenRefresh (paintColour colour s) s

/-- CLEAR (43_strip_device.md R120). -/
def execClear (s : State) : Host.Outcome State Fault Refusal :=
  paintThenRefresh (withDevice s (.done .ok s.zeroPixels)) s

/-- The release of encoder, channel and buffer together: the device registers cease to exist (43_strip_device.md R122,
log 12), and the pin is driven no more (42_transmit_channel.md R107). -/
def State.releaseDevice (s : State) : State :=
  { s with dev := Device.absent, mem := [], devState := .destroyed : State }.markPin

/-- DESTROY (43_strip_device.md R122). -/
def execDestroy (s : State) : Host.Outcome State Fault Refusal :=
  finish <| withDevice s <|
    match s.dev.chState with
    | .enabled => .done .deviceError s
    | .transmitting => .done .deviceError s
    | .disabled => withDriver s fun t => .done .ok t.releaseDevice
    | .deleted => .done .ok s.releaseDevice

end Sys2Proof.Machine
end

