-- ==== Sys2Proof/Machine/Dispatch.lean ====
section
/-! DEFINITION. The meaning of each instruction, one arm per constructor. -/

namespace Sys2Proof.Machine

def exec (i : Instr) (s : State) : Host.Outcome State Fault Refusal :=
  match i with
  | .create numLeds pin => Sys2Proof.Machine.execCreate numLeds pin s
  | .setPixel index r g b => Sys2Proof.Machine.execSetPixel index r g b s
  | .setAllPixels r g b => Sys2Proof.Machine.execSetAllPixels r g b s
  | .setColour colour => Sys2Proof.Machine.execSetColour colour s
  | .refresh => Sys2Proof.Machine.execRefresh s
  | .clear => Sys2Proof.Machine.execClear s
  | .destroy => Sys2Proof.Machine.execDestroy s
  | .encReset => Sys2Proof.Machine.execEncReset s
  | .chEnable => Sys2Proof.Machine.execChEnable s
  | .chTransmit loop => Sys2Proof.Machine.execChTransmit loop s
  | .chWait timeoutMs => Sys2Proof.Machine.execChWait timeoutMs s
  | .chDisable => Sys2Proof.Machine.execChDisable s
  | .chDelete => Sys2Proof.Machine.execChDelete s
  | .encode f => Sys2Proof.Machine.execEncode f s
  | .bytesEncode f => Sys2Proof.Machine.execBytesEncode f s
  | .copyEncode f => Sys2Proof.Machine.execCopyEncode f s
  | .engChunk => Sys2Proof.Machine.execEngChunk s
  | .engEmit => Sys2Proof.Machine.execEngEmit s
  | .engDone => Sys2Proof.Machine.execEngDone s

end Sys2Proof.Machine
end

