-- ==== Sys2Proof/Machine/Access.lean ====
section
/-! DEFINITION. The host's bus accesses: register reads, CFG writes and command words (10_state.md R19 to R42,
20_memory.md R55, 60_exceptions.md R128). -/

namespace Sys2Proof.Machine

/-- The value of a register while it exists (10_state.md R19). -/
def regValue (s : State) : Reg → Word
  | .cmd => 0#32
  | .result => resultWord s.result
  | .status => statusWord s
  | .fault => faultWord s
  | .bytesCursor => BitVec.ofNat 32 s.dev.bytesCursor
  | .copyCursor => BitVec.ofNat 32 s.dev.copyCursor
  | .memblkCount => BitVec.ofNat 32 s.dev.memblk.length
  | .symBit0 => s.dev.symBit0
  | .symBit1 => s.dev.symBit1
  | .symReset => s.dev.symReset
  | .devNumLeds => s.dev.numLeds.setWidth 32
  | .devPin => s.dev.pin.setWidth 32
  | .devResolutionHz => s.dev.resolutionHz
  | .devMemBlock => s.dev.memBlock.setWidth 32
  | .devConfig => s.dev.config
  | .cfgResolutionHz => s.cfg.resolutionHz
  | .cfgMemBlockSymbols => s.cfg.memBlockSymbols.setWidth 32
  | .cfgFlags => s.cfg.flags.setWidth 32
  | .cfgClkSrc => s.cfg.clkSrc.setWidth 32
  | .cfgQueueDepth => s.cfg.queueDepth.setWidth 32
  | .cfgResetUs => s.cfg.resetUs.setWidth 32
  | .cfgT0hNs => s.cfg.t0hNs.setWidth 32
  | .cfgT0lNs => s.cfg.t0lNs.setWidth 32
  | .cfgT1hNs => s.cfg.t1hNs.setWidth 32
  | .cfgT1lNs => s.cfg.t1lNs.setWidth 32
  | .pixbuf j => if j < s.dev.bufferLen then (Memory.read s.mem j).setWidth 32 else 0#32

/-- A permitted read (10_state.md R20): the value; 0 of a device register while NONE; DANGLING and 0 while
DESTROYED (log 14). -/
def readReg (r : Reg) (s : State) : State :=
  if regIsDevice r then
    match s.devState with
    | .none => (s.logRead 0#32).finishAccess
    | .live => (s.logRead (regValue s r)).finishAccess
    | .destroyed => (s.logRead 0#32).raiseDangling
  else (s.logRead (regValue s r)).finishAccess

/-- The CFG registers after a write of `v`, truncated to the register's fields (10_state.md R35); none for a register
that is not read-write. -/
def writeCfg (c : CfgRegs) (v : Word) : Reg → Option CfgRegs
  | .cfgResolutionHz => some { c with resolutionHz := v }
  | .cfgMemBlockSymbols => some { c with memBlockSymbols := v.setWidth 16 }
  | .cfgFlags => some { c with flags := v.setWidth 4 }
  | .cfgClkSrc => some { c with clkSrc := v.setWidth 8 }
  | .cfgQueueDepth => some { c with queueDepth := v.setWidth 8 }
  | .cfgResetUs => some { c with resetUs := v.setWidth 16 }
  | .cfgT0hNs => some { c with t0hNs := v.setWidth 16 }
  | .cfgT0lNs => some { c with t0lNs := v.setWidth 16 }
  | .cfgT1hNs => some { c with t1hNs := v.setWidth 16 }
  | .cfgT1lNs => some { c with t1lNs := v.setWidth 16 }
  | _ => none

/-- The CFG registers written by a finished access (10_state.md R35). -/
def State.setCfg (s : State) (c : CfgRegs) : State := { s with cfg := c }

/-- A write of CMD (10_state.md R21): the command the word encodes, or INVALID_ARGUMENT (30_encoding.md R67). -/
def issueCommand (w : CmdWord) (s : State) : Host.Outcome State Fault Refusal :=
  match decodeHost w with
  | .instr i => exec i s
  | .illegal _ => .next (s.returnCode .invalidArgument)

/-- An `R` access (10_state.md R20). -/
def readAccess (width : Width) (offset : Nat) (s : State) : State :=
  match regAt offset with
  | none => s.refuse
  | some r => if regReadable r && (width == regWidth r) then readReg r s else s.refuse

/-- A `W` access to a register other than CMD (10_state.md R20, R35). -/
def writeAccess (r : Reg) (width : Width) (v : BitVec 64) (s : State) : State :=
  match writeCfg s.cfg (v.setWidth 32) r with
  | none => s.refuse
  | some c => if width = .w32 then (s.setCfg c).finishAccess else s.refuse

/-- One access of the host program (10_state.md R20); a form the map does not permit is refused
(60_exceptions.md R128). -/
def runAccess (a : Access) (s : State) : Host.Outcome State Fault Refusal :=
  match a with
  | .read width offset => .next (readAccess width offset s)
  | .write width offset v =>
    match regAt offset with
    | none => .next s.refuse
    | some .cmd => if width = .w64 then issueCommand v s else .next s.refuse
    | some r => .next (writeAccess r width v s)

end Sys2Proof.Machine
end

