-- ==== Sys2Proof/Machine/Schedule.lean ====
section
/-! DEFINITION. The two agents, their enabled steps, and the choice among them (00_scope.md R16, 20_memory.md R56,
R58, 60_exceptions.md R132). -/

namespace Sys2Proof.Machine

/-- The steps the agents can take: the host's, and the three of the channel engine (00_scope.md R16). -/
inductive Turn where
  | host
  | engChunk
  | engEmit
  | engDone
  deriving DecidableEq, Repr

/-- The access the host is at (10_state.md R18). -/
def State.currentAccess (s : State) : Option Access := s.program[s.hostPos]?

/-- The timeout of the wait a held host is in: its own CH_WAIT's, or that of the wait sub-step, which is infinite
(42_transmit_channel.md R99, 43_strip_device.md R117). -/
def State.heldTimeout (s : State) : Word :=
  match s.currentAccess with
  | some (.write .w64 0 v) =>
    match decodeHost v with
    | .instr (.chWait t) => t
    | _ => infiniteTimeout
  | _ => infiniteTimeout

/-- The host has stopped (60_exceptions.md R126, R128). -/
def State.hostStopped (s : State) : Bool := s.faultDangling || s.faultRefused

/-- WAKE or EXPIRE is enabled (42_transmit_channel.md R99). -/
def State.holdLifts (s : State) : Bool :=
  s.dev.chState != .transmitting || s.heldTimeout != infiniteTimeout

/-- The host has an enabled step: an access to go on with, not stopped, and not held (10_state.md R18, R31). -/
def State.hostEnabled (s : State) : Bool :=
  decide (s.hostPos < s.program.length) && !s.hostStopped && (!s.hostHeld || s.holdLifts)

/-- Whether a turn is enabled. -/
def State.turnEnabled (s : State) : Turn → Bool
  | .host => s.hostEnabled
  | .engChunk => s.chunkEnabled
  | .engEmit => s.emitEnabled
  | .engDone => s.doneEnabled

/-- The enabled steps of the two agents (00_scope.md R16). -/
def State.enabledTurns (s : State) : List Turn := [Turn.host, .engChunk, .engEmit, .engDone].filter s.turnEnabled

/-- The step scheduled next: the only enabled one, or a drawn one (00_scope.md R16, log 4). -/
def State.pickTurn (s : State) : Option (Turn × State) :=
  match s.enabledTurns with
  | [] => none
  | [t] => some (t, s)
  | t :: u :: ts => some ((t :: u :: ts).getD (s.draw.1 % (ts.length + 2)) t, s.draw.2)

/-- The end of a run (70_reset_and_hazards.md R156). -/
def State.ended (s : State) : Bool :=
  (s.hostPos == s.program.length) && (s.hostSub == .start) && !s.hostHeld && !s.transmitting && s.noFault

/-- Why no step is enabled (log 5). -/
def State.stopReason (s : State) : Fault :=
  if s.ended then .runEnded else if s.noFault then .deadlock else .runFaulted

/-- The host's step: its current access, or the next sub-step of it (10_state.md R18). -/
def hostTurn (s : State) : Host.Outcome State Fault Refusal :=
  match s.currentAccess with
  | some a => runAccess a s
  | none => .fault s.stopReason

/-- One atomic step of an agent (20_memory.md R56). -/
def runTurn (t : Turn) (s : State) : Host.Outcome State Fault Refusal :=
  match t with
  | .host => hostTurn s
  | .engChunk => exec .engChunk s
  | .engEmit => exec .engEmit s
  | .engDone => exec .engDone s

/-- One step of the machine. -/
def stepOnce (s : State) : Host.Outcome State Fault Refusal :=
  match s.pickTurn with
  | none => .fault s.stopReason
  | some (t, s') => runTurn t s'

/-! ## Placing a word where the next step runs it (log 1, log 9) -/

/-- The program with `a` at `pos`, padded with reads of RESULT if it is shorter. -/
def placeAccess (p : List Access) (pos : Nat) (a : Access) : List Access :=
  p.take pos ++ List.replicate (pos - p.length) (.read .w32 0x008) ++ a :: p.drop (pos + 1)

/-- `s` with its next choice of turn scripted to be `t`, if there is a choice. -/
def State.scriptTurn (s : State) (t : Turn) : State :=
  if 2 ≤ s.enabledTurns.length then { s with inputs := s.enabledTurns.idxOf t :: s.inputs } else s

/-- `s` whose host writes `w` to CMD in the very next step: the access placed at HOST_POS, the host at the beginning of
an access, not held and not stopped. -/
def State.placeCommand (s : State) (w : CmdWord) : State :=
  { s with
    program := placeAccess s.program s.hostPos (.write .w64 0 w)
    hostSub := .start
    hostHeld := false
    faultDangling := false
    faultRefused := false }.scriptTurn .host

/-- The engine's step in which an internal operation runs. -/
def internalTurn : Instr → Turn
  | .engEmit => .engEmit
  | .engDone => .engDone
  | _ => .engChunk

/-- The internal operation is the reset-code generator, which runs from SEND_RESET. -/
def isCopyEncode : Instr → Bool
  | .copyEncode _ => true
  | _ => false

/-- A one-LED device with an 8-symbol block and a transaction in flight, at the point where the engine runs `i` next. -/
def stagedDevice (i : Instr) : Device :=
  { Device.absent with
    chState := .transmitting
    encState := if isCopyEncode i then .sendReset else .sendPixels
    encDone := decide (i = .engEmit ∨ i = .engDone)
    memblk := if i = .engEmit then [mkSym false 250 false 250] else []
    symBit0 := mkSym true 3 false 9
    symBit1 := mkSym true 9 false 3
    symReset := mkSym false 250 false 250
    numLeds := 1#16
    resolutionHz := Config.defaultResolutionHz
    memBlock := 8#16 }

/-- `s` whose engine runs the internal operation `i` in the very next step: unchanged but for the choice of turn where
that step is enabled, else with a transaction staged for it (log 9). -/
def State.placeInternal (s : State) (i : Instr) : State :=
  if s.turnEnabled (internalTurn i) then s.scriptTurn (internalTurn i)
  else { s with devState := .live, dev := stagedDevice i }.scriptTurn (internalTurn i)

/-- `s` with the word `w` placed so that the next step runs it. -/
def State.placeWord (s : State) (w : CmdWord) : State :=
  match decodeRow w with
  | .instr i => if i.hostIssuable then s.placeCommand w else s.placeInternal i
  | .illegal _ => s.placeCommand w

end Sys2Proof.Machine
end

