-- ==== Sys2Proof/Machine/Step.lean ====
section
/-! DEFINITION. One step of the machine, and placing a word where the next step runs it. -/

namespace Sys2Proof.Machine

/-- One step: the scheduled agent's atomic step (00_scope.md R16). -/
def step (s : State) : Host.Outcome State Fault Refusal := stepOnce s

/-- `s` with the word made of the low `nbits` bits of `w` placed so that `step` runs it next (log 1, log 9). -/
def State.withFetchWord (s : State) (nbits w : Nat) : State := s.placeWord (BitVec.ofNat 64 (w % 2 ^ nbits))

end Sys2Proof.Machine
end

