-- ==== Sys2Proof/Machine/Waveform.lean ====
section
/-! DEFINITION. The waveform of a pin as a function of the wire history and of the devices that drove it
(42_transmit_channel.md R106 to R108, R110, 70_reset_and_hazards.md R155). It is read off the state and changes nothing. -/

namespace Sys2Proof.Machine

/-- What the pin does: rests at a level for a time the model does not know, or holds one for `ticks / res` seconds
(40_symbol_encoder.md R76). -/
inductive PinEvent where
  | rest (level : Bool)
  | pulse (level : Bool) (ticks : Nat) (res : Word)
  deriving DecidableEq, Repr

/-- What a waveform is made from: a device beginning or ceasing to drive its pin, and the events of the wire. -/
inductive PinStep where
  | drive (d : Option PinDrive)
  | event (e : WireEvent)
  deriving DecidableEq, Repr

/-- The drives recorded at one place of the wire. -/
def marksAt (marks : List PinMark) (pos : Nat) : List PinStep :=
  (marks.filter fun m => m.pos == pos).map fun m => .drive m.drive

/-- The wire history with the recorded drives at their places (log 20). -/
def State.pinSteps (s : State) : List PinStep :=
  (List.range (s.wire.length + 1)).flatMap fun k => marksAt s.pinMarks k ++ s.wire[k]?.toList.map .event

/-- How the pin is driven after `steps`, if it was driven as `d` before them. -/
def driveAfter (d : Option PinDrive) (steps : List PinStep) : Option PinDrive :=
  steps.foldl
    (fun d x =>
      match x with
      | .drive d' => d'
      | .event _ => d) d

/-- The drive `d` as `pin` has it; none where the block does not drive that pin: then its level is taken as 0
(42_transmit_channel.md R107, 70_reset_and_hazards.md R142). -/
def driveOn (pin : Half) : Option PinDrive → Option PinDrive
  | none => none
  | some d => if d.pin = pin then some d else none

/-- The level `pin` rests at under the drive `d`: `0 XOR INV`, and 0 where it is not driven (42_transmit_channel.md
R107). -/
def idleOn (pin : Half) (d : Option PinDrive) : Bool := (driveOn pin d).elim false PinDrive.invert

/-- The two pulses of a symbol under the drive `d` (42_transmit_channel.md R107). -/
def symPulses (d : PinDrive) (w : SymWord) : List PinEvent :=
  [.pulse (symLevel0 w ^^ d.invert) (symDuration0 w) d.res, .pulse (symLevel1 w ^^ d.invert) (symDuration1 w) d.res]

/-- The length of a symbol in ticks. -/
def symTicks (w : SymWord) : Nat := symDuration0 w + symDuration1 w

/-- The first `n` ticks of a symbol's pulses. -/
def cutPulses (d : PinDrive) (w : SymWord) (n : Nat) : List PinEvent :=
  if n ≤ symDuration0 w then [.pulse (symLevel0 w ^^ d.invert) n d.res]
  else [.pulse (symLevel0 w ^^ d.invert) (symDuration0 w) d.res,
    .pulse (symLevel1 w ^^ d.invert) (n - symDuration0 w) d.res]

/-- The ticks left of a symbol cut by an abort: any number from 1 to its length, as the free number `c` picks
(42_transmit_channel.md R107, 93 I22, log 20). -/
def cutTicks (w : SymWord) (c : Nat) : Nat := 1 + c % symTicks w

/-- The pulses of a symbol that `rest` follows: cut if that is an Abort, where the first of `cuts` says; else whole. -/
def symOut (rest : List PinStep) (cuts : List Nat) (d : PinDrive) (w : SymWord) : List PinEvent :=
  match rest, cuts with
  | .event .abort :: _, c :: _ => cutPulses d w (cutTicks w c)
  | _, _ => symPulses d w

/-- The waveform of `pin` over `steps`, the pin driven as `d` before them (42_transmit_channel.md R107): symbols back to
back, none on a pin the block does not drive; the idle level after each transaction and from each change of drive on;
the symbol before each Abort cut where that Abort's entry of `cuts` says. -/
def pinWave (pin : Half) : Option PinDrive → List PinStep → List Nat → List PinEvent
  | _, [], _ => []
  | _, .drive d :: rest, cuts => .rest (idleOn pin d) :: pinWave pin d rest cuts
  | d, .event .frameStart :: rest, cuts => pinWave pin d rest cuts
  | d, .event .frameEnd :: rest, cuts => .rest (idleOn pin d) :: pinWave pin d rest cuts
  | d, .event .abort :: rest, cuts => .rest (idleOn pin d) :: pinWave pin d rest cuts.tail
  | d, .event (.sym w) :: rest, cuts =>
    (driveOn pin d).elim [] (fun e => symOut rest cuts e w) ++ pinWave pin d rest cuts

/-- The level `pin` rests at outside a transaction, as the block is now (42_transmit_channel.md R107,
70_reset_and_hazards.md R142). -/
def State.idleLevel (s : State) (pin : Half) : Bool := idleOn pin s.pinDrive

/-- The waveform of `pin` so far, from the level 0 before the first CREATE on (42_transmit_channel.md R107): each
transaction and each rest with the inversion, and each pulse in ticks of the resolution, of the device that then drove
it. -/
def State.waveform (s : State) (pin : Half) (cuts : List Nat) : List PinEvent :=
  .rest false :: pinWave pin none s.pinSteps cuts

/-- The length of a symbol sequence in ticks (70_reset_and_hazards.md R155). -/
def symsTicks (ws : List SymWord) : Nat := (ws.map symTicks).sum

/-- `n` ticks at the resolution `res`, in seconds (40_symbol_encoder.md R76). -/
def tickSeconds (n : Nat) (res : Word) : Rat := (n : Rat) / (res.toNat : Rat)

/-- How long a pulse lasts, in seconds; nothing for a rest, whose length the model does not know (70_reset_and_hazards.md
R155). -/
def pulseSeconds : PinEvent → Rat
  | .rest _ => 0
  | .pulse _ n res => tickSeconds n res

/-- How long the pulses of a waveform last together, in seconds (70_reset_and_hazards.md R155). -/
def waveSeconds (es : List PinEvent) : Rat := (es.map pulseSeconds).sum

/-- How long a symbol of a device lasts, in seconds (70_reset_and_hazards.md R155). -/
def Device.symSeconds (d : Device) (w : SymWord) : Rat := tickSeconds (symTicks w) d.resolutionHz

/-- How long a frame of a device lasts, in seconds (70_reset_and_hazards.md R155). -/
def Device.frameSeconds (d : Device) (m : Memory) : Rat := tickSeconds (symsTicks (frameSyms d m)) d.resolutionHz

/-- One term of `TimingOK`: the tick count of `t` ns is within 150 ns of it (42_transmit_channel.md R108). -/
def ticksClose (res t : Nat) : Bool :=
  decide (ticks res t * 1000000000 ≤ t * res + 150 * res) && decide (t * res ≤ ticks res t * 1000000000 + 150 * res)

/-- `TimingOK(RES)` for the configured bit times (42_transmit_channel.md R108); nothing checks it. -/
def timingOk (c : CfgRegs) (res : Nat) : Bool :=
  ticksClose res c.t0hNs.toNat && ticksClose res c.t0lNs.toNat && ticksClose res c.t1hNs.toNat &&
    ticksClose res c.t1lNs.toNat

end Sys2Proof.Machine
end

