-- ==== Sys2Proof/Safety.lean ====
section
/-! DEFINITION. What counts as a safe run, in the terms statements use: the invariant of the machine, the observation of
an ended run, the symbols a transaction still owes the wire, and sequences of encoder calls. -/

namespace Sys2Proof.Machine

/-! ## The invariant -/

/-- Both durations of a symbol are in range (40_symbol_encoder.md R81). -/
def symOk (w : SymWord) : Bool := durationOk (symDuration0 w) && durationOk (symDuration1 w)

/-- Every index of the pixel buffer's cells is below `n`. -/
def Memory.below (n : Nat) (m : Memory) : Bool := m.all fun c => decide (c.1 < n)

/-- What holds of the registers of a LIVE device (10_state.md R25 to R34, R44). -/
structure Device.Inv (d : Device) : Prop where
  /-- The LED count is 1 to 65535 (00_scope.md R10). -/
  leds : d.numLeds ≠ 0#16
  /-- CREATE rejects K = 0 (10_state.md R37). -/
  capacity : d.memBlock ≠ 0#16
  /-- MEMBLK_COUNT ≤ K (10_state.md R44). -/
  count : d.memblk.length ≤ d.memBlock.toNat
  /-- The cursor stands on a bit of the frame (10_state.md R26). -/
  cursor : d.bytesCursor < d.bitCount
  /-- The copy cursor is 0 after every command and engine step (10_state.md R27). -/
  copy : d.copyCursor = 0
  /-- In SEND_RESET all pixels are encoded (41_strip_encoder_fsm.md R89). -/
  reset : d.encState = .sendReset → d.bytesCursor = 0
  /-- ENC_DONE belongs to a transaction in flight, with the encoder at rest (10_state.md R28, 41 R93). -/
  done : d.encDone = true → d.chState = .transmitting ∧ d.encState = .sendPixels ∧ d.bytesCursor = 0
  /-- Outside a transaction the memory block is empty (10_state.md R44). -/
  idle : d.chState ≠ .transmitting → d.memblk = []
  /-- No LIVE device holds a zero-duration or overlong symbol (40_symbol_encoder.md R81). -/
  bit0 : symOk d.symBit0 = true
  bit1 : symOk d.symBit1 = true
  resetSymbol : symOk d.symReset = true
  /-- The reserved fields and PIXEL_FORMAT of DEV_CONFIG read 0 (10_state.md R34). -/
  config : d.config &&& 0xFF0000FC#32 = 0#32
  /-- QUEUE_DEPTH is at least 1 (42_transmit_channel.md R96). -/
  queue : field d.config 8 8 ≠ 0#8
  /-- The effective resolution is not 0 (43_strip_device.md R111). -/
  resolution : d.resolutionHz ≠ 0#32

/-- The command the host is at, if its current access is a legal write of CMD. -/
def State.currentCommand (s : State) : Option Instr :=
  match s.currentAccess with
  | some (.write .w64 0 v) =>
    match decodeHost v with
    | .instr i => some i
    | .illegal _ => none
  | _ => none

/-- The multi-step commands (20_memory.md R56). -/
def multiStep : Instr → Bool
  | .create _ _ => false
  | .setPixel _ _ _ _ => false
  | .setAllPixels _ _ _ => true
  | .setColour _ => true
  | .refresh => true
  | .clear => true
  | .destroy => false
  | .encReset => false
  | .chEnable => false
  | .chTransmit _ => false
  | .chWait _ => false
  | .chDisable => false
  | .chDelete => false
  | .encode _ => false
  | .bytesEncode _ => false
  | .copyEncode _ => false
  | .engChunk => false
  | .engEmit => false
  | .engDone => false

/-- The command is one of the four multi-step ones. -/
def inMultiStep (c : Option Instr) : Prop := ∃ i, c = some i ∧ multiStep i = true

/-- What a sub-step finds (43_strip_device.md R117): a LIVE device, its channel as the sub-steps before it left it. -/
def subReady : HostSub → ChState → Prop
  | .start, _ => True
  | .enable, _ => True
  | .transmit, c => c = .enabled
  | .wait, c => c = .transmitting ∨ c = .enabled
  | .disable, c => c = .enabled

/-- Every recorded drive stands at or before the wire's end `n`. -/
def marksWithin (marks : List PinMark) (n : Nat) : Bool := marks.all fun m => decide (m.pos ≤ n)

/-- The invariant every step keeps. -/
structure State.Inv (s : State) : Prop where
  /-- The pixel buffer is in canonical form. -/
  memWf : Memory.wf s.mem = true
  /-- No pixel byte stands outside the buffer (10_state.md R43). -/
  memBelow : Memory.below s.dev.bufferLen s.mem = true
  /-- Without a LIVE device its registers do not exist (43_strip_device.md R122, 10_state.md R48). -/
  absent : s.devState ≠ .live → s.dev = Device.absent
  /-- A LIVE device is well formed. -/
  device : s.devState = .live → s.dev.Inv
  /-- HOST_POS does not pass the program's end (10_state.md R18). -/
  pos : s.hostPos ≤ s.program.length
  /-- Only a multi-step command of a LIVE device is between sub-steps. -/
  sub : s.hostSub ≠ .start → s.devState = .live ∧ inMultiStep s.currentCommand
  /-- The channel is as the finished sub-steps left it. -/
  ready : subReady s.hostSub s.dev.chState
  /-- A held host waits in a CH_WAIT or in sub-step W, on a channel enabled before (42_transmit_channel.md R99). -/
  held : s.hostHeld = true → s.devState = .live ∧ (s.dev.chState = .transmitting ∨ s.dev.chState = .enabled) ∧
    (s.hostSub = .wait ∨ s.hostSub = .start ∧ ∃ t, s.currentCommand = some (.chWait t))
  /-- No drive of the pin is recorded beyond the wire's end (log 20). -/
  marks : marksWithin s.pinMarks s.wire.length = true
  /-- By the recorded drives the pin is now driven as the device at hand drives it (42_transmit_channel.md R107). -/
  drive : driveAfter none s.pinSteps = s.pinDrive

/-! ## The observation of an ended run (70_reset_and_hazards.md R156) -/

/-- What an ended run shows. -/
structure Observation where
  wire : List WireEvent
  result : Word
  status : Word
  fault : Word
  /-- The device registers from BYTES_CURSOR to DEV_CONFIG, if DEV_STATE = LIVE. -/
  registers : List Word
  /-- The pixel bytes, if DEV_STATE = LIVE. -/
  pixels : List Byte
  reads : List Word
  deriving DecidableEq, Repr

/-- The device registers in the order of the map (10_state.md R19). -/
def deviceRegs : List Reg :=
  [.bytesCursor, .copyCursor, .memblkCount, .symBit0, .symBit1, .symReset, .devNumLeds, .devPin, .devResolutionHz,
    .devMemBlock, .devConfig]

/-- The pixel buffer as a list of bytes. -/
def State.pixels (s : State) : List Byte := (List.range s.dev.bufferLen).map (Memory.read s.mem)

/-- The observation, of an ended run only (70_reset_and_hazards.md R156). -/
def State.observation (s : State) : Option Observation :=
  if s.ended then
    some
      { wire := s.wire
        result := resultWord s.result
        status := statusWord s
        fault := faultWord s
        registers := if s.devState = .live then deviceRegs.map (regValue s) else []
        pixels := if s.devState = .live then s.pixels else []
        reads := s.reads }
  else none

/-! ## Frames -/

/-- The encoder is at rest, ready for a whole frame (41_strip_encoder_fsm.md R90). -/
def Device.atRest (d : Device) : Prop := d.encState = .sendPixels ∧ d.bytesCursor = 0 ∧ d.copyCursor = 0

/-- The symbols of the current frame not yet encoded (41_strip_encoder_fsm.md R93). -/
def State.unencoded (s : State) : List SymWord :=
  if s.dev.encDone then []
  else match s.dev.encState with
    | .sendReset => [s.dev.symReset]
    | .sendPixels =>
      symsFrom s.dev s.mem s.dev.bytesCursor (s.dev.bitCount - s.dev.bytesCursor) ++ [s.dev.symReset]

/-- The symbols the transaction in flight still owes the wire: those in the memory block, then those not yet encoded. -/
def State.owed (s : State) : List SymWord := s.dev.memblk ++ s.unencoded

/-- The Sym events since the last FrameStart of a wire history (42_transmit_channel.md R106). -/
def sentSyms (wire : List WireEvent) : List SymWord :=
  wire.foldl
    (fun acc e =>
      match e with
      | .frameStart => []
      | .sym w => acc ++ [w]
      | .frameEnd => acc
      | .abort => acc) []

/-- Where an event of the wire may stand (42_transmit_channel.md R106): FrameStart outside a transaction, which it opens;
Sym inside one; FrameEnd and Abort inside one, which they close. -/
def wireNext (opened : Bool) : WireEvent → Option Bool
  | .frameStart => if opened then none else some true
  | .sym _ => if opened then some true else none
  | .frameEnd => if opened then some false else none
  | .abort => if opened then some false else none

/-- Whether a wire history is well bracketed and, if so, whether a transaction is open at its end
(42_transmit_channel.md R106). -/
def wireOpen (wire : List WireEvent) : Option Bool := wire.foldlM wireNext false

/-- BYTES_ENCODE called with the budgets in turn until a call returns COMPLETE: all the symbols pushed, and the state
after that call; none if no call completes (40_symbol_encoder.md R85). -/
def bytesCalls : List Nat → State → Option (List SymWord × State)
  | [], _ => none
  | f :: fs, s =>
    match (bytesEncode f s).result with
    | .complete => some ((bytesEncode f s).pushed, (bytesEncode f s).state)
    | .memFull =>
      match bytesCalls fs (bytesEncode f s).state with
      | some (ws, t) => some ((bytesEncode f s).pushed ++ ws, t)
      | none => none

/-- The same for ENCODE (41_strip_encoder_fsm.md R90). -/
def encodeCalls : List Nat → State → Option (List SymWord × State)
  | [], _ => none
  | f :: fs, s =>
    match (encodeChunk f s).result with
    | .complete => some ((encodeChunk f s).pushed, (encodeChunk f s).state)
    | .memFull =>
      match encodeCalls fs (encodeChunk f s).state with
      | some (ws, t) => some ((encodeChunk f s).pushed ++ ws, t)
      | none => none

/-! ## Command classes -/

/-- The commands that may write the pixel buffer, or make and release it (10_state.md R43). -/
def writesPixels : Instr → Bool
  | .create _ _ => true
  | .setPixel _ _ _ _ => true
  | .setAllPixels _ _ _ => true
  | .setColour _ => true
  | .refresh => false
  | .clear => true
  | .destroy => true
  | .encReset => false
  | .chEnable => false
  | .chTransmit _ => false
  | .chWait _ => false
  | .chDisable => false
  | .chDelete => false
  | .encode _ => false
  | .bytesEncode _ => false
  | .copyEncode _ => false
  | .engChunk => false
  | .engEmit => false
  | .engDone => false

/-- The codes a command may return (60_exceptions.md R124). -/
def mayReturn : Instr → List ResultCode
  | .create _ _ => [.ok, .outOfMemory, .invalidArgument]
  | .setPixel _ _ _ _ => [.ok, .invalidArgument, .indexOutOfRange]
  | .setAllPixels _ _ _ => [.ok, .invalidArgument, .deviceError]
  | .setColour _ => [.ok, .invalidArgument, .deviceError]
  | .refresh => [.ok, .invalidArgument, .deviceError]
  | .clear => [.ok, .invalidArgument, .deviceError]
  | .destroy => [.ok, .invalidArgument, .deviceError]
  | .encReset => [.ok, .invalidArgument, .hardwareBusy]
  | .chEnable => [.ok, .invalidArgument, .deviceError]
  | .chTransmit _ => [.ok, .invalidArgument, .hardwareBusy, .deviceError]
  | .chWait _ => [.ok, .invalidArgument, .timeout]
  | .chDisable => [.ok, .invalidArgument, .deviceError]
  | .chDelete => [.ok, .invalidArgument, .deviceError]
  | .encode _ => []
  | .bytesEncode _ => []
  | .copyEncode _ => []
  | .engChunk => []
  | .engEmit => []
  | .engDone => []

/-- The states in which a command raises Fault(DANGLING) (60_exceptions.md R127), the multi-step ones at the sub-step
HOST_SUB names. -/
def danglesIn (i : Instr) (s : State) : Prop :=
  match i with
  | .create _ _ => False
  | .setPixel _ _ _ _ => s.devState = .destroyed
  | .destroy => s.devState = .destroyed
  | .encReset => s.devState = .destroyed
  | .chEnable => s.devState = .destroyed ∨ s.devState = .live ∧ s.dev.chState = .deleted
  | .chTransmit l => s.devState = .destroyed ∨ s.devState = .live ∧ l = 0#8 ∧ s.dev.chState = .deleted
  | .chWait _ => s.devState = .destroyed ∨ s.devState = .live ∧ s.dev.chState = .deleted
  | .chDisable => s.devState = .destroyed ∨ s.devState = .live ∧ s.dev.chState = .deleted
  | .chDelete => s.devState = .destroyed ∨ s.devState = .live ∧ s.dev.chState = .deleted
  | .refresh => s.devState = .destroyed ∨ s.devState = .live ∧ s.dev.chState = .deleted
  | .clear => s.devState = .destroyed ∨ s.hostSub = .enable ∧ s.devState = .live ∧ s.dev.chState = .deleted
  | .setAllPixels _ _ _ =>
    s.devState = .destroyed ∨ s.hostSub = .enable ∧ s.devState = .live ∧ s.dev.chState = .deleted
  | .setColour _ => s.devState = .destroyed ∨ s.hostSub = .enable ∧ s.devState = .live ∧ s.dev.chState = .deleted
  | .encode _ => False
  | .bytesEncode _ => False
  | .copyEncode _ => False
  | .engChunk => False
  | .engEmit => False
  | .engDone => False

/-! ## The register map and the opcode table, for statements -/

/-- The reads the map permits: 32-bit at the offsets 0x008 to 0x064, 8-bit in the PIXBUF window (10_state.md R19, R20). -/
def permittedRead (width : Width) (offset : Nat) : Bool :=
  (width == .w32 && decide (0x008 ≤ offset) && decide (offset ≤ 0x064) && offset % 4 == 0) ||
    (width == .w8 && decide (0x1000 ≤ offset))

/-- The writes the map permits: CMD, and the CFG registers (10_state.md R19, R20). -/
def permittedWrite (width : Width) (offset : Nat) : Bool :=
  (width == .w64 && offset == 0x000) ||
    (width == .w32 && decide (0x040 ≤ offset) && decide (offset ≤ 0x064) && offset % 4 == 0)

/-- The offsets of scope "device" (10_state.md R19). -/
def deviceOffset (offset : Nat) : Bool :=
  (decide (0x014 ≤ offset) && decide (offset ≤ 0x03C)) || decide (0x1000 ≤ offset)

/-- The readable 32-bit registers: offset, register, and the state it shows (10_state.md R19, R22 to R27, R32 to R44). -/
def readTable (s : State) : List (Nat × Reg × Word) :=
  [(0x008, .result, resultWord s.result), (0x00C, .status, statusWord s), (0x010, .fault, faultWord s),
    (0x014, .bytesCursor, BitVec.ofNat 32 s.dev.bytesCursor), (0x018, .copyCursor, BitVec.ofNat 32 s.dev.copyCursor),
    (0x01C, .memblkCount, BitVec.ofNat 32 s.dev.memblk.length), (0x020, .symBit0, s.dev.symBit0),
    (0x024, .symBit1, s.dev.symBit1), (0x028, .symReset, s.dev.symReset),
    (0x02C, .devNumLeds, s.dev.numLeds.setWidth 32), (0x030, .devPin, s.dev.pin.setWidth 32),
    (0x034, .devResolutionHz, s.dev.resolutionHz), (0x038, .devMemBlock, s.dev.memBlock.setWidth 32),
    (0x03C, .devConfig, s.dev.config), (0x040, .cfgResolutionHz, s.cfg.resolutionHz),
    (0x044, .cfgMemBlockSymbols, s.cfg.memBlockSymbols.setWidth 32), (0x048, .cfgFlags, s.cfg.flags.setWidth 32),
    (0x04C, .cfgClkSrc, s.cfg.clkSrc.setWidth 32), (0x050, .cfgQueueDepth, s.cfg.queueDepth.setWidth 32),
    (0x054, .cfgResetUs, s.cfg.resetUs.setWidth 32), (0x058, .cfgT0hNs, s.cfg.t0hNs.setWidth 32),
    (0x05C, .cfgT0lNs, s.cfg.t0lNs.setWidth 32), (0x060, .cfgT1hNs, s.cfg.t1hNs.setWidth 32),
    (0x064, .cfgT1lNs, s.cfg.t1lNs.setWidth 32)]

/-- The CFG registers: offset, register, and the mask of its fields (10_state.md R36 to R42). -/
def cfgTable : List (Nat × Reg × Word) :=
  [(0x040, .cfgResolutionHz, 0xFFFFFFFF#32), (0x044, .cfgMemBlockSymbols, 0x0000FFFF#32),
    (0x048, .cfgFlags, 0x0000000F#32), (0x04C, .cfgClkSrc, 0x000000FF#32), (0x050, .cfgQueueDepth, 0x000000FF#32),
    (0x054, .cfgResetUs, 0x0000FFFF#32), (0x058, .cfgT0hNs, 0x0000FFFF#32), (0x05C, .cfgT0lNs, 0x0000FFFF#32),
    (0x060, .cfgT1hNs, 0x0000FFFF#32), (0x064, .cfgT1lNs, 0x0000FFFF#32)]

/-- The match and mask of the thirteen host rows of spec/opcode_table.json. -/
def hostRows : List (CmdWord × CmdWord) :=
  [(0x01#64, 0xFFFFFF00000000FF#64), (0x02#64, 0xFFFF0000000000FF#64), (0x03#64, 0xFFFF000000FFFFFF#64),
    (0x04#64, 0xFFFFFFFFFFFF00FF#64), (0x05#64, 0xFFFFFFFFFFFFFFFF#64), (0x06#64, 0xFFFFFFFFFFFFFFFF#64),
    (0x07#64, 0xFFFFFFFFFFFFFFFF#64), (0x10#64, 0xFFFFFFFFFFFFFFFF#64), (0x20#64, 0xFFFFFFFFFFFFFFFF#64),
    (0x21#64, 0xFFFFFFFFFFFF00FF#64), (0x22#64, 0xFFFFFF00000000FF#64), (0x23#64, 0xFFFFFFFFFFFFFFFF#64),
    (0x24#64, 0xFFFFFFFFFFFFFFFF#64)]

/-- The CH_STATE transitions of 42_transmit_channel.md R94 within one device. -/
def channelEdge : ChState → ChState → Bool
  | .disabled, .enabled => true
  | .enabled, .transmitting => true
  | .transmitting, .enabled => true
  | .enabled, .disabled => true
  | .transmitting, .disabled => true
  | .disabled, .deleted => true
  | _, _ => false

end Sys2Proof.Machine
end

