-- ==== Sys2Proof/WellFormed.lean ====
section
/-! DEFINITION. Which terms of `Instr` have a word. The host operands fill their fields by type (30_encoding.md
R65); the budget of an internal encode operation must fit the 56 bits the model spells it in (log 7). -/

namespace Sys2Proof

/-- The budget of an internal encode operation fits bits [63:8] of its word. DESIGN CHOICE (log 7). -/
def budgetFits (f : Nat) : Bool := decide (f < 2 ^ 56)

/-- `i` is the reading of some word. -/
def Instr.wellFormed : Instr → Bool
  | .encode f => budgetFits f
  | .bytesEncode f => budgetFits f
  | .copyEncode f => budgetFits f
  | .create _ _ => true
  | .setPixel _ _ _ _ => true
  | .setAllPixels _ _ _ => true
  | .setColour _ => true
  | .refresh => true
  | .clear => true
  | .destroy => true
  | .encReset => true
  | .chEnable => true
  | .chTransmit _ => true
  | .chWait _ => true
  | .chDisable => true
  | .chDelete => true
  | .engChunk => true
  | .engEmit => true
  | .engDone => true

end Sys2Proof
end

