-- ==== Sys2Proof/Certificates/Slice0/Obligations.lean ====
section
/-! DEFINITION. The statements for the provers, each citing the rules of spec/ it formalises. -/

open Sys2Proof Sys2Proof.Machine

/-! ## Encoding (30_encoding.md) -/

/-- The encoding examples of R75. -/
def Obligations.EncodingExamples : Prop :=
  decodeHost 0x0000000005000201#64 = .instr (.create 2#16 5#16) ∧
  decodeHost 0x00000000FF000002#64 = .instr (.setPixel 0#16 255#8 0#8 0#8) ∧
  decodeHost 0x0000563412000102#64 = .instr (.setPixel 1#16 0x12#8 0x34#8 0x56#8) ∧
  decodeHost 0x0000FFFF00000003#64 = .instr (.setAllPixels 0#8 255#8 255#8) ∧
  decodeHost 0x0000000000000404#64 = .instr (.setColour 4#8) ∧
  decodeHost 0x0000000000000005#64 = .instr .refresh ∧
  decodeHost 0x0000000000000021#64 = .instr (.chTransmit 0#8) ∧
  decodeHost 0x000000FFFFFFFF22#64 = .instr (.chWait 0xFFFFFFFF#32) ∧
  mkSym true 3 false 9 = 0x00098003#32

/-- Every well-formed instruction is decoded from its word, by the host's decoder exactly if the host may issue it
(R64, R65, R66, R68). -/
def Obligations.DecodeOfEncode : Prop :=
  ∀ i : Instr, i.wellFormed = true →
    decodeRow (encode i) = .instr i ∧
    decodeHost (encode i) = (if i.hostIssuable then .instr i else .illegal .internalOpcode)

/-- A word the host's decoder accepts is the word of the command it decodes to, and that is one a host may issue
(R64, R67, R68). -/
def Obligations.EncodeOfDecode : Prop :=
  ∀ (w : CmdWord) (i : Instr), decodeHost w = .instr i → encode i = w ∧ i.hostIssuable = true ∧ i.wellFormed = true

/-- A word is illegal exactly if it matches none of the thirteen host rows; it then finishes with INVALID_ARGUMENT and
changes nothing else, in every state (R67). -/
def Obligations.IllegalWordsRejected : Prop :=
  ∀ (w : CmdWord) (s : State),
    ((∃ why, decodeHost w = .illegal why) ↔ ∀ row ∈ hostRows, w &&& row.2 ≠ row.1) ∧
    ((∀ row ∈ hostRows, w &&& row.2 ≠ row.1) →
      issueCommand w s = .next { s with result := .invalidArgument, hostSub := .start, hostPos := s.hostPos + 1 })

/-- When the only enabled turn is the host's and its access writes to CMD a word that decodes to `i`, the step is
`exec i`; where a draw picks the host among several turns, the same on the state after that draw (10_state.md R18, R21). -/
def Obligations.StepRunsDecodedCommand : Prop :=
  ∀ (s : State) (w : CmdWord) (i : Instr),
    s.currentAccess = some (.write .w64 0 w) → decodeHost w = .instr i →
    (s.enabledTurns = [.host] → step s = exec i s) ∧
    (∀ s', s.pickTurn = some (.host, s') → step s = exec i s')

/-! ## Reset (10_state.md R48, 70_reset_and_hazards.md R142) -/

/-- The power-on column of R48, on every platform. -/
def Obligations.PowerOnValues : Prop :=
  State.reset = State.resetOn Config.platform ∧
  ∀ p : Platform,
    let s := State.resetOn p
    resultWord s.result = 0#32 ∧ statusWord s = 0#32 ∧ faultWord s = 0#32 ∧ s.devState = .none ∧
    s.hostHeld = false ∧ s.cfg.resolutionHz = 10000000#32 ∧ s.cfg.memBlockSymbols = p.memBlockDefault ∧
    s.cfg.flags = 0#4 ∧ s.cfg.clkSrc = 0#8 ∧ s.cfg.queueDepth = 4#8 ∧ s.cfg.resetUs = 50#16 ∧
    s.cfg.t0hNs = 300#16 ∧ s.cfg.t0lNs = 900#16 ∧ s.cfg.t1hNs = 900#16 ∧ s.cfg.t1lNs = 300#16 ∧
    s.wire = [] ∧ s.hostPos = 0 ∧ s.hostSub = .start ∧ ∀ pin, s.idleLevel pin = false

/-- The invariant holds after power-on reset, on every platform. -/
def Obligations.ResetMeetsInvariant : Prop := State.reset.Inv ∧ ∀ p : Platform, (State.resetOn p).Inv

/-! ## Whole-machine rules -/

/-- Every step keeps the invariant, from every state that meets it. -/
def Obligations.StepKeepsInvariant : Prop := ∀ s t : State, s.Inv → step s = .next t → t.Inv

/-- No step changes the program or the parameters, HOST_POS stays or advances by 1, no FAULT bit is ever cleared, the
wire history only grows, and so does the list of values read (10_state.md R18, R24, R45, R47). -/
def Obligations.StepsOnlyAdd : Prop :=
  ∀ s t : State, step s = .next t →
    t.program = s.program ∧ t.platform = s.platform ∧ (t.hostPos = s.hostPos ∨ t.hostPos = s.hostPos + 1) ∧
    faultWord t &&& faultWord s = faultWord s ∧ (∃ es, t.wire = s.wire ++ es) ∧ ∃ vs, t.reads = s.reads ++ vs

/-- The wire history is well bracketed at power-on and stays so, with a transaction open exactly while one is in flight
(42_transmit_channel.md R106). -/
def Obligations.WireStaysBracketed : Prop :=
  (∀ p, wireOpen (State.resetOn p).wire = some (State.resetOn p).transmitting) ∧
  ∀ s t : State, wireOpen s.wire = some s.transmitting → step s = .next t → wireOpen t.wire = some t.transmitting

/-- RESULT changes only in a step that finishes a command written to CMD (10_state.md R22). -/
def Obligations.OnlyCommandsWriteResult : Prop :=
  ∀ s t : State, step s = .next t → t.result ≠ s.result →
    (∃ w, s.currentAccess = some (.write .w64 0 w)) ∧ t.hostPos = s.hostPos + 1 ∧ t.hostSub = .start

/-- What CREATE latches does not change while the device is LIVE (10_state.md R32, R33, R34). -/
def Obligations.LatchedRegistersFixed : Prop :=
  ∀ s t : State, step s = .next t → s.devState = .live → t.devState = .live →
    t.dev.numLeds = s.dev.numLeds ∧ t.dev.pin = s.dev.pin ∧ t.dev.resolutionHz = s.dev.resolutionHz ∧
    t.dev.memBlock = s.dev.memBlock ∧ t.dev.config = s.dev.config ∧ t.dev.symBit0 = s.dev.symBit0 ∧
    t.dev.symBit1 = s.dev.symBit1 ∧ t.dev.symReset = s.dev.symReset

/-- DEV_STATE moves only from NONE or DESTROYED to LIVE and from LIVE to DESTROYED (10_state.md R29), and CH_STATE of a
device only along the transitions of 42_transmit_channel.md R94. -/
def Obligations.LifecycleTransitions : Prop :=
  ∀ s t : State, step s = .next t →
    (t.devState = s.devState ∨ s.devState ≠ .live ∧ t.devState = .live ∨
      s.devState = .live ∧ t.devState = .destroyed) ∧
    (s.devState = .live → t.devState = .live →
      t.dev.chState = s.dev.chState ∨ channelEdge s.dev.chState t.dev.chState = true) ∧
    (s.devState ≠ .live → t.devState = .live → t.dev.chState = .disabled)

/-- Only CREATE, SET_PIXEL, SET_ALL_PIXELS, SET_COLOUR, CLEAR and DESTROY change the pixel buffer (10_state.md R43,
20_memory.md R49), and RACE is set only by such a command while TRANSMITTING (20_memory.md R59). -/
def Obligations.PixelBufferWriters : Prop :=
  ∀ (i : Instr) (s t : State), exec i s = .next t →
    (writesPixels i = false → t.mem = s.mem) ∧
    (t.faultRace ≠ s.faultRace →
      s.devState = .live ∧ s.dev.chState = .transmitting ∧ writesPixels i = true ∧ t.faultRace = true)

/-- A step of the engine changes the device, the wire and the draws to come, and nothing else (42_transmit_channel.md
R102, R103, R104). -/
def Obligations.EngineStepFrame : Prop :=
  ∀ (u : Turn) (s t : State), u ≠ .host → runTurn u s = .next t →
    t = { s with dev := t.dev, wire := t.wire, inputs := t.inputs, drawCount := t.drawCount } ∧
    s.transmitting = true

/-- Any enabled turn can be the next one: some next draw picks it (00_scope.md R16, 20_memory.md R58). -/
def Obligations.ScheduleIsFree : Prop :=
  ∀ (s : State) (u : Turn), s.turnEnabled u = true →
    ∃ is js, ({ s with inputs := is } : State).pickTurn = some (u, { s with inputs := js })

/-- A command returns only the codes of its row in the table of 60_exceptions.md R124. -/
def Obligations.CommandsReturnListedCodes : Prop :=
  ∀ (i : Instr) (s t : State), s.Inv → s.currentCommand = some i → exec i s = .next t →
    t.hostPos = s.hostPos + 1 → t.result ∈ mayReturn i

/-- A host command raises DANGLING in the states of 60_exceptions.md R127 and in no other; the multi-step commands may
raise it in their first sub-step and at sub-step E. -/
def Obligations.DanglingExactly : Prop :=
  ∀ (i : Instr) (s : State), s.hostHeld = false → s.faultDangling = false → s.hostSub = .start ∨ s.hostSub = .enable →
    ((∃ t, exec i s = .next t ∧ t.faultDangling = true) ↔ danglesIn i s)

/-- While TRANSMITTING the engine has an enabled step (42_transmit_channel.md R105), so no state that meets the
invariant deadlocks (60_exceptions.md R129). -/
def Obligations.NoDeadlock : Prop :=
  ∀ s : State, s.Inv →
    (s.transmitting = true → s.chunkEnabled = true ∨ s.emitEnabled = true ∨ s.doneEnabled = true) ∧
    step s ≠ .fault .deadlock

/-- Every run of a finite program stops after finitely many steps, whatever the draws (60_exceptions.md R130). -/
def Obligations.EveryRunStops : Prop :=
  ∀ s : State, s.Inv → ∃ n, ∀ t, Host.Core.run Sys2Proof.core n s ≠ .next t

/-- A run ends exactly in the states of 70_reset_and_hazards.md R156, and only those have an observation. -/
def Obligations.EndOfRun : Prop :=
  ∀ s : State,
    (step s = .fault .runEnded ↔
      s.hostPos = s.program.length ∧ s.hostSub = .start ∧ s.hostHeld = false ∧
      ¬ (s.devState = .live ∧ s.dev.chState = .transmitting) ∧ faultWord s = 0#32) ∧
    (s.observation.isSome = true ↔ step s = .fault .runEnded)

/-! ## Registers (10_state.md R19 to R42) -/

/-- The register map of R19 with what each register shows, the numbers of RESULT.CODE (R22, R73) and the bits of FAULT
(R24), then the access rules of R20. The PIXBUF window without an upper end is the model's (log 15), and so is that a
read while DESTROYED records its 0 and leaves HOST_POS (log 14). -/
def Obligations.RegisterAccessRules : Prop :=
  (∀ s : State,
    (∀ row ∈ readTable s, regAt row.1 = some row.2.1 ∧ regValue s row.2.1 = row.2.2) ∧
    resultWord s.result =
      (match s.result with
      | .ok => 0#32
      | .outOfMemory => 1#32
      | .invalidArgument => 2#32
      | .indexOutOfRange => 3#32
      | .hardwareBusy => 4#32
      | .timeout => 5#32
      | .deviceError => 6#32) ∧
    (faultWord s).getLsbD 0 = s.faultRace ∧ (faultWord s).getLsbD 1 = s.faultDangling ∧
    (faultWord s).getLsbD 2 = s.faultRefused ∧ field (faultWord s) 3 29 = 0#29) ∧
  ∀ (s : State) (width : Width) (offset : Nat),
    (permittedRead width offset = false →
      runAccess (.read width offset) s = .next { s with faultRefused := true }) ∧
    (permittedWrite width offset = false → ∀ v,
      runAccess (.write width offset v) s = .next { s with faultRefused := true }) ∧
    (permittedRead width offset = true → ∃ r, regAt offset = some r ∧
      ((deviceOffset offset = false ∨ s.devState = .live) → runAccess (.read width offset) s =
        .next { s with reads := s.reads ++ [regValue s r], hostPos := s.hostPos + 1 }) ∧
      (deviceOffset offset = true → s.devState = .none → runAccess (.read width offset) s =
        .next { s with reads := s.reads ++ [0#32], hostPos := s.hostPos + 1 }) ∧
      (deviceOffset offset = true → s.devState = .destroyed → runAccess (.read width offset) s =
        .next { s with reads := s.reads ++ [0#32], faultDangling := true }) ∧
      (0x1000 ≤ offset ↔ r = .pixbuf (offset - 0x1000)) ∧
      (∀ j, r = .pixbuf j → offset = 0x1000 + j ∧
        regValue s r = if j < 3 * s.dev.numLeds.toNat then (Memory.read s.mem j).setWidth 32 else 0#32))

/-- A CFG write stores the value truncated to the register's fields, reads back so, and changes no other register and
nothing of a LIVE device (R35). -/
def Obligations.CfgWriteTruncates : Prop :=
  ∀ (s : State) (v : BitVec 64), ∀ row ∈ cfgTable, ∃ t,
    runAccess (.write .w32 row.1 v) s = .next t ∧ regAt row.1 = some row.2.1 ∧
    regValue t row.2.1 = v.setWidth 32 &&& row.2.2 ∧
    (∀ r, r ≠ row.2.1 → regValue t r = regValue s r) ∧
    t = { s with cfg := t.cfg, hostPos := s.hostPos + 1 }

/-- The fields of STATUS (R23). -/
def Obligations.StatusFields : Prop :=
  (∀ p, statusWord (State.resetOn p) = 0#32) ∧
  ∀ s : State,
    field (statusWord s) 0 2 = (match s.devState with | .none => 0#2 | .live => 1#2 | .destroyed => 2#2) ∧
    field (statusWord s) 6 1 = BitVec.ofBool s.hostHeld ∧
    field (statusWord s) 7 25 = 0#25 ∧
    (s.devState ≠ .live → field (statusWord s) 2 4 = 0#4) ∧
    (s.devState = .live →
      field (statusWord s) 2 2 =
        (match s.dev.chState with | .disabled => 0#2 | .enabled => 1#2 | .transmitting => 2#2 | .deleted => 3#2) ∧
      field (statusWord s) 4 1 = (match s.dev.encState with | .sendPixels => 0#1 | .sendReset => 1#1) ∧
      field (statusWord s) 5 1 = BitVec.ofBool s.dev.encDone)

/-! ## Symbols (40_symbol_encoder.md) -/

/-- The symbols of the power-on configuration (R82). -/
def Obligations.DefaultSymbols : Prop :=
  ∀ p, let c := CfgRegs.reset p
    (effRes c).toNat = 10000000 ∧
    bit0Sym c = mkSym true 3 false 9 ∧ bit0Sym c = 0x00098003#32 ∧
    bit1Sym c = mkSym true 9 false 3 ∧ bit1Sym c = 0x00038009#32 ∧
    resetSym c = mkSym false 250 false 250 ∧ resetSym c = 0x00FA00FA#32 ∧
    symTicks (bit0Sym c) = 12 ∧ symTicks (bit1Sym c) = 12 ∧ symTicks (resetSym c) = 500

/-- Where CREATE's duration check passes, the symbols hold exactly the computed tick counts, with the levels of R79 and
R80, and each lies in 1 to 32767 (R79, R80, R81). -/
def Obligations.SymbolsHoldTheirDurations : Prop :=
  ∀ c : CfgRegs, (durations c).all durationOk = true →
    let res := (effRes c).toNat
    symLevel0 (bit0Sym c) = true ∧ symLevel1 (bit0Sym c) = false ∧
    symDuration0 (bit0Sym c) = (c.t0hNs.toNat * res + 500000000) / 1000000000 ∧
    symDuration1 (bit0Sym c) = (c.t0lNs.toNat * res + 500000000) / 1000000000 ∧
    symLevel0 (bit1Sym c) = true ∧ symLevel1 (bit1Sym c) = false ∧
    symDuration0 (bit1Sym c) = (c.t1hNs.toNat * res + 500000000) / 1000000000 ∧
    symDuration1 (bit1Sym c) = (c.t1lNs.toNat * res + 500000000) / 1000000000 ∧
    symLevel0 (resetSym c) = false ∧ symLevel1 (resetSym c) = false ∧
    symDuration0 (resetSym c) = c.resetUs.toNat * res / 1000000 / 2 ∧
    symDuration1 (resetSym c) = c.resetUs.toNat * res / 1000000 / 2 ∧
    symOk (bit0Sym c) = true ∧ symOk (bit1Sym c) = true ∧ symOk (resetSym c) = true

/-- The tick error is at most half a tick, so the tolerance holds from 3,333,334 Hz on (42_transmit_channel.md R108). -/
def Obligations.TickErrorBound : Prop :=
  (∀ res t : Nat, ticks res t * 1000000000 ≤ t * res + 500000000 ∧
    t * res ≤ ticks res t * 1000000000 + 500000000) ∧
  ∀ (c : CfgRegs) (res : Nat), 3333334 ≤ res → timingOk c res = true

/-- A frame is 8·L bit symbols, byte by byte and most significant bit first, then the reset symbol (R83, 20_memory.md
R53). -/
def Obligations.FrameSymbolOrder : Prop :=
  ∀ (d : Device) (m : Memory),
    (frameSyms d m).length = 8 * (3 * d.numLeds.toNat) + 1 ∧
    (∀ j b, j < 3 * d.numLeds.toNat → b < 8 → (frameSyms d m)[8 * j + b]? =
      some (if (Memory.read m j).getLsbD (7 - b) then d.symBit1 else d.symBit0)) ∧
    (frameSyms d m)[8 * (3 * d.numLeds.toNat)]? = some d.symReset

/-- BYTES_ENCODE pushes the symbols from the cursor on, as many as are left and the budget allows, and moves the
cursor, back to 0 when none is left (R84). -/
def Obligations.BytesEncodeResult : Prop :=
  ∀ (f : Nat) (s : State), s.devState = .live → s.dev.memblk.length + f ≤ s.dev.memBlock.toNat →
    let total := 8 * (3 * s.dev.numLeds.toNat)
    let n := min f (total - s.dev.bytesCursor)
    let done := decide (total ≤ s.dev.bytesCursor + f)
    (bytesEncode f s).pushed.length = n ∧
    (bytesEncode f s).result = (if done then .complete else .memFull) ∧
    exec (.bytesEncode f) s = .next
      { s with dev := { s.dev with
          bytesCursor := if done then 0 else s.dev.bytesCursor + f
          memblk := s.dev.memblk ++ (List.range n).map fun k =>
            if (Memory.read s.mem ((s.dev.bytesCursor + k) / 8)).getLsbD (7 - (s.dev.bytesCursor + k) % 8)
            then s.dev.symBit1 else s.dev.symBit0 } }

/-- BYTES_ENCODE resumes: from cursor 0 the calls up to the first COMPLETE push the whole buffer, whatever the budgets,
and they complete exactly if the budgets add up to the buffer (R85). -/
def Obligations.BytesEncodeResumes : Prop :=
  ∀ (s : State) (fs : List Nat), s.dev.numLeds ≠ 0#16 → s.dev.bytesCursor = 0 →
    (∀ ws t, bytesCalls fs s = some (ws, t) →
      ws = bytesSyms s.dev s.mem 0 (3 * s.dev.numLeds.toNat) ∧ t.dev.bytesCursor = 0) ∧
    ((bytesCalls fs s).isSome = true ↔ 8 * (3 * s.dev.numLeds.toNat) ≤ fs.sum)

/-- COPY_ENCODE from its resting cursor: nothing and MEM_FULL for a budget of 0, else the reset symbol and COMPLETE
(R86). -/
def Obligations.CopyEncodeResult : Prop :=
  ∀ (f : Nat) (s : State), s.devState = .live → s.dev.copyCursor = 0 →
    s.dev.memblk.length < s.dev.memBlock.toNat →
    (copyEncode f s).result = (if f = 0 then .memFull else .complete) ∧
    (copyEncode f s).pushed = (if f = 0 then [] else [s.dev.symReset]) ∧
    exec (.copyEncode f) s = .next
      { s with dev := { s.dev with memblk := s.dev.memblk ++ (if f = 0 then [] else [s.dev.symReset]) } }

/-! ## The strip encoder (41_strip_encoder_fsm.md) -/

/-- The transition table of R88 with the corner cases of R89: pixels only, pixels that fill the budget exactly, pixels
and reset symbol in one call, and the reset symbol alone. -/
def Obligations.EncodeTransitions : Prop :=
  ∀ (f : Nat) (s : State), s.devState = .live → 1 ≤ f → s.dev.memblk.length + f ≤ s.dev.memBlock.toNat →
    s.dev.copyCursor = 0 → s.dev.bytesCursor < s.dev.bitCount →
    let left := s.dev.bitCount - s.dev.bytesCursor
    let px := symsFrom s.dev s.mem s.dev.bytesCursor (min f left)
    exec (.encode f) s = .next
      { s with dev :=
        match s.dev.encState with
        | .sendReset => { s.dev with encState := .sendPixels, memblk := s.dev.memblk ++ [s.dev.symReset] }
        | .sendPixels =>
          if f < left then { s.dev with bytesCursor := s.dev.bytesCursor + f, memblk := s.dev.memblk ++ px }
          else if f = left then
            { s.dev with encState := .sendReset, bytesCursor := 0, memblk := s.dev.memblk ++ px }
          else { s.dev with bytesCursor := 0, memblk := s.dev.memblk ++ px ++ [s.dev.symReset] } } ∧
    ((encodeChunk f s).result = .complete ↔ s.dev.encState = .sendReset ∨ left < f) ∧
    1 ≤ (encodeChunk f s).pushed.length ∧ (encodeChunk f s).pushed.length ≤ f

/-- Frame integrity (R90): from rest, whatever the budgets, the ENCODE calls up to the first COMPLETE push exactly the
frame, and leave the encoder at rest. -/
def Obligations.FrameIntegrity : Prop :=
  ∀ (s : State) (fs : List Nat) (ws : List SymWord) (t : State), s.dev.numLeds ≠ 0#16 → s.dev.atRest →
    (∀ f ∈ fs, 1 ≤ f) → encodeCalls fs s = some (ws, t) → ws = frameSyms s.dev s.mem ∧ t.dev.atRest

/-- The invocation count (R91): with budgets of K, a frame of N symbols takes exactly ⌈N / K⌉ calls; with budgets of at
most K, at least as many. -/
def Obligations.InvocationCount : Prop :=
  ∀ (s : State) (k : Nat), s.dev.numLeds ≠ 0#16 → s.dev.atRest → 1 ≤ k →
    let calls := (8 * (3 * s.dev.numLeds.toNat) + 1 + (k - 1)) / k
    (∀ n, (encodeCalls (List.replicate n k) s).isSome = true ↔ calls ≤ n) ∧
    ∀ fs, (∀ f ∈ fs, 1 ≤ f ∧ f ≤ k) → (encodeCalls fs s).isSome = true → calls ≤ fs.length

/-- ENC_RESET (R92). -/
def Obligations.EncResetResult : Prop :=
  encode .encReset = 0x0000000000000010#64 ∧
  ∀ s : State, exec .encReset s = .next
    (match s.devState with
    | .none => { s with result := .invalidArgument, hostSub := .start, hostPos := s.hostPos + 1 }
    | .destroyed => { s with faultDangling := true }
    | .live =>
      if s.dev.chState = .transmitting then
        { s with result := .hardwareBusy, hostSub := .start, hostPos := s.hostPos + 1 }
      else
        { s with
          dev := { s.dev with bytesCursor := 0, copyCursor := 0, encState := .sendPixels }
          result := .ok, hostSub := .start, hostPos := s.hostPos + 1 })

/-- The dead cursor (R93): CH_TRANSMIT does not reset the encoder, so the transaction it starts owes the frame less the
symbols before the cursor, or the reset symbol alone. -/
def Obligations.TransmitResumesDeadCursor : Prop :=
  ∀ s t : State, exec (.chTransmit 0#8) s = .next t → s.transmitting = false → t.transmitting = true →
    t.dev.bytesCursor = s.dev.bytesCursor ∧ t.dev.encState = s.dev.encState ∧
    t.owed = (match s.dev.encState with
      | .sendPixels =>
        (frameSyms s.dev s.mem).drop (min s.dev.bytesCursor (8 * (3 * s.dev.numLeds.toNat)))
      | .sendReset => [s.dev.symReset])

/-! ## The channel (42_transmit_channel.md) -/

/-- CH_ENABLE (R97). -/
def Obligations.ChEnableResult : Prop :=
  encode .chEnable = 0x0000000000000020#64 ∧
  ∀ s : State, exec .chEnable s = .next
    (match s.devState with
    | .none => { s with result := .invalidArgument, hostSub := .start, hostPos := s.hostPos + 1 }
    | .destroyed => { s with faultDangling := true }
    | .live =>
      match s.dev.chState with
      | .deleted => { s with faultDangling := true }
      | .disabled =>
        if s.driverFails.1 then
          { s.driverFails.2 with result := .deviceError, hostSub := .start, hostPos := s.hostPos + 1 }
        else
          { s.driverFails.2 with
            dev := { s.dev with chState := .enabled }
            result := .ok, hostSub := .start, hostPos := s.hostPos + 1 }
      | _ => { s with result := .deviceError, hostSub := .start, hostPos := s.hostPos + 1 })

/-- CH_TRANSMIT (R98). -/
def Obligations.ChTransmitResult : Prop :=
  encode (.chTransmit 0#8) = 0x0000000000000021#64 ∧
  ∀ (l : Byte) (s : State), exec (.chTransmit l) s = .next
    (match s.devState with
    | .none => { s with result := .invalidArgument, hostSub := .start, hostPos := s.hostPos + 1 }
    | .destroyed => { s with faultDangling := true }
    | .live =>
      if l ≠ 0#8 then { s with result := .invalidArgument, hostSub := .start, hostPos := s.hostPos + 1 }
      else match s.dev.chState with
      | .deleted => { s with faultDangling := true }
      | .transmitting => { s with result := .hardwareBusy, hostSub := .start, hostPos := s.hostPos + 1 }
      | .disabled => { s with result := .deviceError, hostSub := .start, hostPos := s.hostPos + 1 }
      | .enabled =>
        if s.driverFails.1 then
          { s.driverFails.2 with result := .deviceError, hostSub := .start, hostPos := s.hostPos + 1 }
        else
          { s.driverFails.2 with
            dev := { s.dev with chState := .transmitting, encDone := false, memblk := [] }
            wire := s.wire ++ [.frameStart]
            result := .ok, hostSub := .start, hostPos := s.hostPos + 1 })

/-- CH_WAIT (R99): the first step of the wait, the steps WAKE and EXPIRE of a held host, and that these two are all it
has. -/
def Obligations.ChWaitResult : Prop :=
  encode (.chWait 0xFFFFFFFF#32) = 0x000000FFFFFFFF22#64 ∧
  (∀ (w : Word) (s : State), s.hostHeld = false → exec (.chWait w) s = .next
    (match s.devState with
    | .none => { s with result := .invalidArgument, hostSub := .start, hostPos := s.hostPos + 1 }
    | .destroyed => { s with faultDangling := true }
    | .live =>
      match s.dev.chState with
      | .deleted => { s with faultDangling := true }
      | .transmitting =>
        if w = 0#32 then { s with result := .timeout, hostSub := .start, hostPos := s.hostPos + 1 }
        else { s with hostHeld := true }
      | _ => { s with result := .ok, hostSub := .start, hostPos := s.hostPos + 1 })) ∧
  (∀ (w : Word) (s : State), s.hostHeld = true → s.dev.chState ≠ .transmitting → exec (.chWait w) s = .next
    { s with hostHeld := false, result := .ok, hostSub := .start, hostPos := s.hostPos + 1 }) ∧
  (∀ (w : Word) (s : State), s.hostHeld = true → s.dev.chState = .transmitting → w ≠ 0xFFFFFFFF#32 →
    exec (.chWait w) s = .next
      { s with hostHeld := false, result := .timeout, hostSub := .start, hostPos := s.hostPos + 1 }) ∧
  (∀ (w : Word) (s : State), s.hostHeld = true → s.currentCommand = some (.chWait w) → s.hostStopped = false →
    (s.hostEnabled = true ↔ s.dev.chState ≠ .transmitting ∨ w ≠ 0xFFFFFFFF#32))

/-- A host held in an infinite wait has no enabled step while TRANSMITTING, and one once the channel has left it, which
returns OK; so no transaction is in flight when the wait returns (R99, 20_memory.md R60). -/
def Obligations.InfiniteWaitSynchronises : Prop :=
  ∀ s : State, s.hostHeld = true → s.heldTimeout = 0xFFFFFFFF#32 → s.hostPos < s.program.length →
    s.hostStopped = false →
    (s.hostEnabled = true ↔ s.dev.chState ≠ .transmitting) ∧
    ∀ t, exec (.chWait 0xFFFFFFFF#32) s = .next t → t.hostPos = s.hostPos + 1 →
      t.result = .ok ∧ t.transmitting = false

/-- CH_DISABLE (R100): from TRANSMITTING it aborts, and keeps the encoder where it is. -/
def Obligations.ChDisableResult : Prop :=
  encode .chDisable = 0x0000000000000023#64 ∧
  ∀ s : State, exec .chDisable s = .next
    (match s.devState with
    | .none => { s with result := .invalidArgument, hostSub := .start, hostPos := s.hostPos + 1 }
    | .destroyed => { s with faultDangling := true }
    | .live =>
      match s.dev.chState with
      | .deleted => { s with faultDangling := true }
      | .disabled => { s with result := .deviceError, hostSub := .start, hostPos := s.hostPos + 1 }
      | .enabled =>
        if s.driverFails.1 then
          { s.driverFails.2 with result := .deviceError, hostSub := .start, hostPos := s.hostPos + 1 }
        else
          { s.driverFails.2 with
            dev := { s.dev with chState := .disabled }
            result := .ok, hostSub := .start, hostPos := s.hostPos + 1 }
      | .transmitting =>
        if s.driverFails.1 then
          { s.driverFails.2 with result := .deviceError, hostSub := .start, hostPos := s.hostPos + 1 }
        else
          { s.driverFails.2 with
            dev := { s.dev with chState := .disabled, encDone := false, memblk := [] }
            wire := s.wire ++ [.abort]
            result := .ok, hostSub := .start, hostPos := s.hostPos + 1 })

/-- CH_DELETE (R101). -/
def Obligations.ChDeleteResult : Prop :=
  encode .chDelete = 0x0000000000000024#64 ∧
  ∀ s : State, exec .chDelete s = .next
    (match s.devState with
    | .none => { s with result := .invalidArgument, hostSub := .start, hostPos := s.hostPos + 1 }
    | .destroyed => { s with faultDangling := true }
    | .live =>
      match s.dev.chState with
      | .deleted => { s with faultDangling := true }
      | .disabled =>
        if s.driverFails.1 then
          { s.driverFails.2 with result := .deviceError, hostSub := .start, hostPos := s.hostPos + 1 }
        else
          { s.driverFails.2 with
            dev := { s.dev with chState := .deleted }
            result := .ok, hostSub := .start, hostPos := s.hostPos + 1 }
      | _ => { s with result := .deviceError, hostSub := .start, hostPos := s.hostPos + 1 })

/-- ENG_CHUNK (R102): when it is enabled, the budget of each policy, and its effect through ENCODE. -/
def Obligations.EngChunkResult : Prop :=
  ∀ s : State,
    let enabled := s.devState = .live ∧ s.dev.chState = .transmitting ∧ s.dev.encDone = false ∧
      (s.platform.chunkPolicy = .fullBlock ∧ s.dev.memblk = [] ∨
        s.platform.chunkPolicy = .anyFree ∧ s.dev.memblk.length < s.dev.memBlock.toNat)
    (s.chunkEnabled = true ↔ enabled) ∧
    (enabled → ∃ f s',
      (s.platform.chunkPolicy = .fullBlock → f = s.dev.memBlock.toNat ∧ s' = s) ∧
      (s.platform.chunkPolicy = .anyFree → 1 ≤ f ∧ f ≤ s.dev.memBlock.toNat - s.dev.memblk.length ∧
        s' = s.draw.2) ∧
      exec .engChunk s = .next
        { (encodeChunk f s').state with dev := { (encodeChunk f s').state.dev with
            encDone := decide ((encodeChunk f s').result = .complete) || (encodeChunk f s').state.dev.encDone } })

/-- ENG_EMIT and ENG_DONE (R103, R104): when each is enabled and what it does. -/
def Obligations.EngEmitDoneResult : Prop :=
  (∀ s : State, s.emitEnabled = true ↔ s.devState = .live ∧ s.dev.chState = .transmitting ∧ s.dev.memblk ≠ []) ∧
  (∀ (s : State) (w : SymWord) (rest : List SymWord),
    s.devState = .live → s.dev.chState = .transmitting → s.dev.memblk = w :: rest →
    exec .engEmit s = .next { s with dev := { s.dev with memblk := rest }, wire := s.wire ++ [.sym w] }) ∧
  ∀ s : State,
    let enabled := s.devState = .live ∧ s.dev.chState = .transmitting ∧ s.dev.encDone = true ∧ s.dev.memblk = []
    (s.doneEnabled = true ↔ enabled) ∧
    (enabled → exec .engDone s = .next
      { s with dev := { s.dev with chState := .enabled, encDone := false }, wire := s.wire ++ [.frameEnd] })

/-- Where the internal operations stop, the model's own choice (log 8): an engine step that is not enabled, an encode
operation with no LIVE device, and one that would push more symbols than the memory block has room for. -/
def Obligations.InternalOperationStops : Prop :=
  ∀ (f : Nat) (s : State),
    (s.chunkEnabled = false → exec .engChunk s = .refused (.notEnabled "ENG_CHUNK")) ∧
    (s.emitEnabled = false → exec .engEmit s = .refused (.notEnabled "ENG_EMIT")) ∧
    (s.doneEnabled = false → exec .engDone s = .refused (.notEnabled "ENG_DONE")) ∧
    (s.devState ≠ .live →
      exec (.encode f) s = .refused (.notEnabled "ENCODE") ∧
      exec (.bytesEncode f) s = .refused (.notEnabled "BYTES_ENCODE") ∧
      exec (.copyEncode f) s = .refused (.notEnabled "COPY_ENCODE")) ∧
    (s.devState = .live →
      (s.dev.memBlock.toNat < s.dev.memblk.length + (encodeChunk f s).pushed.length →
        exec (.encode f) s = .refused (.blockOverflow "ENCODE")) ∧
      (s.dev.memBlock.toNat < s.dev.memblk.length + (bytesEncode f s).pushed.length →
        exec (.bytesEncode f) s = .refused (.blockOverflow "BYTES_ENCODE")) ∧
      (s.dev.memBlock.toNat < s.dev.memblk.length + (copyEncode f s).pushed.length →
        exec (.copyEncode f) s = .refused (.blockOverflow "COPY_ENCODE")))

/-- Whatever the interleaving of chunks and emits, the symbols sent since FrameStart followed by those still owed stay
the same list (R103, R106). -/
def Obligations.EngineConservesSymbols : Prop :=
  ∀ (u : Turn) (s t : State), s.Inv → u = .engChunk ∨ u = .engEmit → runTurn u s = .next t →
    sentSyms t.wire ++ t.owed = sentSyms s.wire ++ s.owed ∧ t.transmitting = true

/-- A transaction with the host waiting or finished reaches ENG_DONE within 2N + 1 engine steps, N the symbols it owes,
and puts exactly those on the wire, then FrameEnd; the channel is then ENABLED and the encoder at rest (R104, R105,
R106). -/
def Obligations.TransactionCompletes : Prop :=
  ∀ s : State, s.Inv → s.transmitting = true → s.hostEnabled = false →
    ∃ n t, n ≤ 2 * s.owed.length + 1 ∧ Host.Core.run Sys2Proof.core n s = .next t ∧
      t.wire = s.wire ++ s.owed.map .sym ++ [.frameEnd] ∧ t.dev.chState = .enabled ∧ t.dev.encDone = false ∧
      t.dev.memblk = [] ∧ t.dev.atRest ∧ t.mem = s.mem ∧ t.hostPos = s.hostPos ∧ t.result = s.result

/-- The waveform of a pin (R107): a transaction's symbols back to back, each half for its ticks of 1 / RES seconds (R76), then
the idle level; the symbol before an Abort
cut at any tick after it began, which the free number of that Abort picks (log 20); the inversion flag inverts the whole
line, and a pin the block does not drive stays at 0. A state's waveform begins at 0, gains the idle level of a new
device with its CREATE and 0 with its DESTROY, keeps what went before, and ends at the idle level of the device at hand
while no transaction is open. -/
def Obligations.WaveformOfTransaction : Prop :=
  (∀ (pin : Half) (inv : Bool) (res : Word) (ws : List SymWord) (rest : List PinStep) (cuts : List Nat),
    let d : Option PinDrive := some ⟨pin, inv, res⟩
    let sent := ws.map fun w => PinStep.event (.sym w)
    let pulses := ws.flatMap fun w => [PinEvent.pulse (w.getLsbD 15 ^^ inv) (field w 0 15).toNat res,
      .pulse (w.getLsbD 31 ^^ inv) (field w 16 15).toNat res]
    pinWave pin d (.event .frameStart :: sent ++ .event .frameEnd :: rest) cuts =
      pulses ++ .rest inv :: pinWave pin d rest cuts ∧
    pinWave pin d (.event .frameStart :: .event .abort :: rest) cuts = .rest inv :: pinWave pin d rest cuts.tail ∧
    ∀ w : SymWord,
      let n0 := (field w 0 15).toNat
      let n1 := (field w 16 15).toNat
      (∀ n, 1 ≤ n → n ≤ n0 + n1 →
        pinWave pin d (.event .frameStart :: sent ++ .event (.sym w) :: .event .abort :: rest) ((n - 1) :: cuts) =
          pulses ++ (if n ≤ n0 then [.pulse (w.getLsbD 15 ^^ inv) n res]
            else [.pulse (w.getLsbD 15 ^^ inv) n0 res, .pulse (w.getLsbD 31 ^^ inv) (n - n0) res]) ++
            .rest inv :: pinWave pin d rest cuts) ∧
      ∀ c,
        pinWave pin d (.event .frameStart :: sent ++ .event (.sym w) :: .event .abort :: rest) (c :: cuts) =
          pinWave pin d (.event .frameStart :: sent ++ .event (.sym w) :: .event .abort :: rest)
            (c % (n0 + n1) :: cuts)) ∧
  (∀ (pin : Half) (res : Word) (es : List WireEvent) (cuts : List Nat),
    pinWave pin (some ⟨pin, true, res⟩) (es.map .event) cuts =
      (pinWave pin (some ⟨pin, false, res⟩) (es.map .event) cuts).map fun e =>
        match e with
        | .rest l => .rest (!l)
        | .pulse l n r => .pulse (!l) n r) ∧
  (∀ (pin : Half) (d : Option PinDrive) (es : List WireEvent) (cuts : List Nat), (∀ x, d = some x → x.pin ≠ pin) →
    ∀ e ∈ pinWave pin d (es.map .event) cuts, e = .rest false) ∧
  ∀ (s : State) (pin : Half) (cuts : List Nat), s.Inv →
    (s.waveform pin cuts).head? = some (.rest false) ∧
    (∀ es, ({ s with wire := s.wire ++ es } : State).pinSteps = s.pinSteps ++ es.map .event) ∧
    (∀ n p t, exec (.create n p) s = .next t → s.devState ≠ .live → t.devState = .live →
      t.waveform pin cuts = s.waveform pin cuts ++ [.rest (decide (p = pin) && s.cfg.flags.getLsbD 1)]) ∧
    (∀ t, exec .destroy s = .next t → s.devState = .live → t.devState = .destroyed →
      t.waveform pin cuts = s.waveform pin cuts ++ [.rest false]) ∧
    (wireOpen s.wire = some false → (s.waveform pin cuts).getLast? =
      some (.rest (decide (s.devState = .live ∧ s.dev.pin = pin) && s.dev.config.getLsbD 1)))

/-- How long bits, frames and transactions last (70_reset_and_hazards.md R155): each bit symbol of a new device its two
durations by RES, in seconds; a frame 24 · N bit times, ones and zeros each their own, and the reset symbol's 2h by RES;
its waveform on the device's pin as long; and the values at the power-on configuration. -/
def Obligations.FrameDuration : Prop :=
  (∀ (d : Device) (m : Memory), ∃ zeros ones, zeros + ones = 24 * d.numLeds.toNat ∧
    d.frameSeconds m = zeros * d.symSeconds d.symBit0 + ones * d.symSeconds d.symBit1 + d.symSeconds d.symReset) ∧
  (∀ (d : Device) (m : Memory) (b : Nat), symTicks d.symBit0 = b → symTicks d.symBit1 = b →
    symsTicks (frameSyms d m) = 24 * d.numLeds.toNat * b + symTicks d.symReset ∧
    d.frameSeconds m = 24 * d.numLeds.toNat * ((b : Rat) / d.resolutionHz.toNat) +
      (symTicks d.symReset : Rat) / d.resolutionHz.toNat) ∧
  (∀ (n p : Half) (c : CfgRegs), (durations c).all durationOk = true →
    let d := createdDevice n p c
    let res := (effRes c).toNat
    let tk := fun t : Half => (t.toNat * res + 500000000) / 1000000000
    let h := c.resetUs.toNat * res / 1000000 / 2
    d.resolutionHz = effRes c ∧
    d.symSeconds d.symBit0 = ((tk c.t0hNs + tk c.t0lNs : Nat) : Rat) / res ∧
    d.symSeconds d.symBit1 = ((tk c.t1hNs + tk c.t1lNs : Nat) : Rat) / res ∧
    d.symSeconds d.symReset = ((2 * h : Nat) : Rat) / res) ∧
  (∀ (d : Device) (m : Memory) (inv : Bool) (cuts : List Nat),
    waveSeconds (pinWave d.pin (some ⟨d.pin, inv, d.resolutionHz⟩)
      (.event .frameStart :: ((frameSyms d m).map fun w => .event (.sym w)) ++ [.event .frameEnd]) cuts) =
      d.frameSeconds m) ∧
  ∀ (pl : Platform) (n p : Half) (m : Memory),
    let d := createdDevice n p (CfgRegs.reset pl)
    d.symSeconds d.symBit0 = 12 / 10000000 ∧ d.symSeconds d.symBit1 = 12 / 10000000 ∧
    d.frameSeconds m = 24 * n.toNat * (12 / 10000000) + 50 / 1000000 ∧
    (n = 2#16 → d.frameSeconds m = 1076 / 10000000)

/-- No engine step depends on DEV_CONFIG, so neither WITH_DMA nor INVERT_OUT changes what is transmitted (R109). -/
def Obligations.EngineIgnoresConfig : Prop :=
  ∀ (u : Turn) (s t : State) (c : Word), u ≠ .host → runTurn u s = .next t →
    runTurn u { s with dev := { s.dev with config := c } } = .next { t with dev := { t.dev with config := c } }

/-! ## The strip device (43_strip_device.md) -/

/-- CREATE, with its checks in order (R113). The bound 32767 and the symbol layout are general knowledge (log 16, log 18),
and the record of the pin's drive is the model's (log 20). -/
def Obligations.CreateResult : Prop :=
  encode (.create 2#16 5#16) = 0x0000000005000201#64 ∧
  ∀ (n p : Half) (s : State),
    let c := s.cfg
    let res := if c.resolutionHz = 0#32 then 10000000#32 else c.resolutionHz
    let tk := fun t : Half => (t.toNat * res.toNat + 500000000) / 1000000000
    let h := c.resetUs.toNat * res.toNat / 1000000 / 2
    let fmt := field c.flags 2 2
    let u := s.allocFails.2
    exec (.create n p) s = .next
      (if s.devState = .live ∨ n = 0#16 ∨ s.platform.validPins.has p.toNat = false ∨
          s.platform.boundPins.has p.toNat = true then
        { s with result := .invalidArgument, hostSub := .start, hostPos := s.hostPos + 1 }
      else if fmt = 1#2 then { s with faultRefused := true }
      else if fmt = 2#2 ∨ fmt = 3#2 ∨ c.memBlockSymbols = 0#16 ∨ c.queueDepth = 0#8 ∨
          s.platform.clkSrcValues.has c.clkSrc.toNat = false ∨
          (∃ d ∈ [tk c.t0hNs, tk c.t0lNs, tk c.t1hNs, tk c.t1lNs, h], ¬ (1 ≤ d ∧ d ≤ 32767)) then
        { s with result := .invalidArgument, hostSub := .start, hostPos := s.hostPos + 1 }
      else if s.allocFails.1 then { u with result := .outOfMemory, hostSub := .start, hostPos := s.hostPos + 1 }
      else
        { (u.drawBytes (3 * n.toNat)).2 with
          devState := .live
          dev :=
            { chState := .disabled, encState := .sendPixels, encDone := false, bytesCursor := 0, copyCursor := 0
              memblk := []
              symBit0 := mkSym true (tk c.t0hNs) false (tk c.t0lNs)
              symBit1 := mkSym true (tk c.t1hNs) false (tk c.t1lNs)
              symReset := mkSym false h false h
              numLeds := n, pin := p, resolutionHz := res, memBlock := c.memBlockSymbols
              config := 0#8 ++ c.clkSrc ++ c.queueDepth ++ 0#6 ++ field c.flags 0 2 }
          mem := Memory.writeBytes [] 0 (u.drawBytes (3 * n.toNat)).1
          pinMarks := s.pinMarks ++ [⟨s.wire.length, some ⟨p, c.flags.getLsbD 1, res⟩⟩]
          result := .ok, hostSub := .start, hostPos := s.hostPos + 1 })

/-- A CREATE whose arguments and configuration are good initialises every device element, each pixel byte a draw, and
keeps FAULT, the CFG registers and the wire (70_reset_and_hazards.md R143); it may find a DESTROYED device. -/
def Obligations.CreateInitialises : Prop :=
  ∀ (n p : Half) (s : State), s.devState ≠ .live → n ≠ 0#16 → s.platform.validPins.has p.toNat = true →
    s.platform.boundPins.has p.toNat = false → field s.cfg.flags 2 2 = 0#2 → s.cfg.memBlockSymbols ≠ 0#16 →
    s.cfg.queueDepth ≠ 0#8 → s.platform.clkSrcValues.has s.cfg.clkSrc.toNat = true →
    (durations s.cfg).all durationOk = true → s.allocFails.1 = false →
    ∃ t, exec (.create n p) s = .next t ∧ t.devState = .live ∧ t.result = .ok ∧ t.dev.chState = .disabled ∧
      t.dev.encState = .sendPixels ∧ t.dev.encDone = false ∧ t.dev.bytesCursor = 0 ∧ t.dev.copyCursor = 0 ∧
      t.dev.memblk = [] ∧ t.dev.numLeds = n ∧ t.dev.pin = p ∧ t.dev.memBlock = s.cfg.memBlockSymbols ∧
      t.dev.resolutionHz = effRes s.cfg ∧ t.dev.config = devConfigWord s.cfg ∧ t.dev.symBit0 = bit0Sym s.cfg ∧
      t.dev.symBit1 = bit1Sym s.cfg ∧ t.dev.symReset = resetSym s.cfg ∧
      (∀ j, j < 3 * n.toNat → Memory.read t.mem j =
        (s.allocFails.2.drawBytes (3 * n.toNat)).1.getD j 0#8) ∧
      (∀ j, 3 * n.toNat ≤ j → Memory.read t.mem j = 0#8) ∧
      faultWord t = faultWord s ∧ t.cfg = s.cfg ∧ t.wire = s.wire ∧ t.hostHeld = s.hostHeld

/-- SET_PIXEL (R115): the checks, G R B at bytes 3i, 3i + 1, 3i + 2, every other byte as before, RACE if a transaction is
in flight, and no other change. -/
def Obligations.SetPixelResult : Prop :=
  encode (.setPixel 0#16 255#8 0#8 0#8) = 0x00000000FF000002#64 ∧
  ∀ (i : Half) (r g b : Byte) (s : State),
    (s.devState = .none → exec (.setPixel i r g b) s =
      .next { s with result := .invalidArgument, hostSub := .start, hostPos := s.hostPos + 1 }) ∧
    (s.devState = .destroyed → exec (.setPixel i r g b) s = .next { s with faultDangling := true }) ∧
    (s.devState = .live → s.dev.numLeds.toNat ≤ i.toNat → exec (.setPixel i r g b) s =
      .next { s with result := .indexOutOfRange, hostSub := .start, hostPos := s.hostPos + 1 }) ∧
    (s.devState = .live → i.toNat < s.dev.numLeds.toNat → ∃ m, exec (.setPixel i r g b) s =
        .next { s with
          mem := m, faultRace := s.faultRace || decide (s.dev.chState = .transmitting)
          result := .ok, hostSub := .start, hostPos := s.hostPos + 1 } ∧
      Memory.read m (3 * i.toNat) = g ∧ Memory.read m (3 * i.toNat + 1) = r ∧
      Memory.read m (3 * i.toNat + 2) = b ∧
      ∀ a, a < 3 * i.toNat ∨ 3 * i.toNat + 3 ≤ a → Memory.read m a = Memory.read s.mem a)

/-- The first step of SET_ALL_PIXELS (R116, R118): every pixel of the strip painted, every byte beyond it as before, RACE
if a transaction is in flight, then on to sub-step E; the later steps are REFRESH's. -/
def Obligations.SetAllPixelsResult : Prop :=
  ∀ (r g b : Byte) (s : State),
    (s.hostSub ≠ .start → exec (.setAllPixels r g b) s = exec .refresh s) ∧
    (s.hostSub = .start → s.devState = .none → exec (.setAllPixels r g b) s =
      .next { s with result := .invalidArgument, hostPos := s.hostPos + 1 }) ∧
    (s.hostSub = .start → s.devState = .destroyed → exec (.setAllPixels r g b) s =
      .next { s with faultDangling := true }) ∧
    (s.hostSub = .start → s.devState = .live → ∃ m, exec (.setAllPixels r g b) s =
        .next { s with
          mem := m, faultRace := s.faultRace || decide (s.dev.chState = .transmitting), hostSub := .enable } ∧
      (∀ k, k < s.dev.numLeds.toNat → Memory.read m (3 * k) = g ∧ Memory.read m (3 * k + 1) = r ∧
        Memory.read m (3 * k + 2) = b) ∧
      ∀ a, 3 * s.dev.numLeds.toNat ≤ a → Memory.read m a = Memory.read s.mem a)

/-- The first step of SET_COLOUR (R112, R119): the strip painted in the palette's colour, every byte beyond it as before,
RACE if a transaction is in flight, then on to sub-step E; INVALID_ARGUMENT and no other change for a colour of 6 or
more; the later steps are REFRESH's. The colours 1, 2, 3 and 5 are general knowledge (log 17). -/
def Obligations.SetColourResult : Prop :=
  ∀ (c : Byte) (s : State),
    (s.hostSub ≠ .start → exec (.setColour c) s = exec .refresh s) ∧
    (s.hostSub = .start → s.devState = .none → exec (.setColour c) s =
      .next { s with result := .invalidArgument, hostPos := s.hostPos + 1 }) ∧
    (s.hostSub = .start → s.devState = .destroyed → exec (.setColour c) s = .next { s with faultDangling := true }) ∧
    (s.hostSub = .start → s.devState = .live → 6 ≤ c.toNat → exec (.setColour c) s =
      .next { s with result := .invalidArgument, hostPos := s.hostPos + 1 }) ∧
    (s.hostSub = .start → s.devState = .live → c.toNat < 6 → ∃ m, exec (.setColour c) s =
        .next { s with
          mem := m, faultRace := s.faultRace || decide (s.dev.chState = .transmitting), hostSub := .enable } ∧
      (∀ k, k < s.dev.numLeds.toNat →
        (Memory.read m (3 * k), Memory.read m (3 * k + 1), Memory.read m (3 * k + 2)) =
          match c.toNat with
          | 0 => (0#8, 255#8, 0#8)
          | 1 => (255#8, 0#8, 0#8)
          | 2 => (0#8, 0#8, 255#8)
          | 3 => (255#8, 255#8, 0#8)
          | 4 => (255#8, 0#8, 255#8)
          | _ => (0#8, 255#8, 255#8)) ∧
      ∀ a, 3 * s.dev.numLeds.toNat ≤ a → Memory.read m a = Memory.read s.mem a)

/-- The first step of CLEAR (R120): every byte of the buffer 0, every byte beyond it as before, RACE if a transaction is
in flight, then on to sub-step E; the later steps are REFRESH's. -/
def Obligations.ClearResult : Prop :=
  ∀ s : State,
    (s.hostSub ≠ .start → exec .clear s = exec .refresh s) ∧
    (s.hostSub = .start → s.devState = .none → exec .clear s =
      .next { s with result := .invalidArgument, hostPos := s.hostPos + 1 }) ∧
    (s.hostSub = .start → s.devState = .destroyed → exec .clear s = .next { s with faultDangling := true }) ∧
    (s.hostSub = .start → s.devState = .live → ∃ m, exec .clear s =
        .next { s with
          mem := m, faultRace := s.faultRace || decide (s.dev.chState = .transmitting), hostSub := .enable } ∧
      (∀ j, j < 3 * s.dev.numLeds.toNat → Memory.read m j = 0#8) ∧
      ∀ a, 3 * s.dev.numLeds.toNat ≤ a → Memory.read m a = Memory.read s.mem a)

/-- REFRESH from each value of HOST_SUB (R117, R121): its sub-steps E, T, W and D on a channel in the state each expects,
the driver not failing at E, T and D, and W whatever it would do, a wait taking no draw (R99); and a sub-step that fails ends the command with its code, unchanged, and nothing is cleaned up:
a null handle, a destroyed device, a channel not DISABLED at E, a deleted channel at E, a driver failure at E, T or D. -/
def Obligations.RefreshStepResults : Prop :=
  ∀ s : State,
    (s.devState = .live →
      (s.hostSub = .wait → s.hostHeld = false → s.dev.chState = .transmitting → exec .refresh s = .next
        { s with hostHeld := true }) ∧
      (s.hostSub = .wait → s.dev.chState = .enabled → exec .refresh s = .next
        { s with hostHeld := false, hostSub := .disable })) ∧
    (s.devState = .live → s.driverFails.1 = false →
      (s.hostSub = .start ∨ s.hostSub = .enable → s.dev.chState = .disabled → exec .refresh s = .next
        { s.driverFails.2 with dev := { s.dev with chState := .enabled }, hostSub := .transmit }) ∧
      (s.hostSub = .transmit → s.dev.chState = .enabled → exec .refresh s = .next
        { s.driverFails.2 with
          dev := { s.dev with chState := .transmitting, encDone := false, memblk := [] }
          wire := s.wire ++ [.frameStart], hostSub := .wait }) ∧
      (s.hostSub = .disable → s.dev.chState = .enabled → exec .refresh s = .next
        { s.driverFails.2 with
          dev := { s.dev with chState := .disabled }
          result := .ok, hostSub := .start, hostPos := s.hostPos + 1 })) ∧
    (s.hostSub = .start → s.devState = .none → exec .refresh s = .next
      { s with result := .invalidArgument, hostPos := s.hostPos + 1 }) ∧
    (s.hostSub = .start → s.devState = .destroyed → exec .refresh s = .next { s with faultDangling := true }) ∧
    (s.hostSub = .start ∨ s.hostSub = .enable → s.devState = .live →
      s.dev.chState = .enabled ∨ s.dev.chState = .transmitting → exec .refresh s = .next
        { s with result := .deviceError, hostSub := .start, hostPos := s.hostPos + 1 }) ∧
    (s.hostSub = .start ∨ s.hostSub = .enable → s.devState = .live → s.dev.chState = .deleted →
      exec .refresh s = .next { s with faultDangling := true }) ∧
    (s.devState = .live → s.driverFails.1 = true →
      (s.hostSub = .start ∨ s.hostSub = .enable) ∧ s.dev.chState = .disabled ∨
        (s.hostSub = .transmit ∨ s.hostSub = .disable) ∧ s.dev.chState = .enabled →
      exec .refresh s = .next
        { s.driverFails.2 with result := .deviceError, hostSub := .start, hostPos := s.hostPos + 1 })

/-- A REFRESH of a DISABLED channel with the encoder at rest and a driver that cannot fail returns OK, whatever the
chunks and the interleaving: the wire gains FrameStart, exactly the frame of the pixel buffer, and FrameEnd, the channel
ends DISABLED and nothing else of the device changes (R117). -/
def Obligations.RefreshSendsOneFrame : Prop :=
  ∀ s : State, s.Inv → s.devState = .live → s.dev.chState = .disabled → s.dev.atRest → s.hostSub = .start →
    s.currentCommand = some .refresh → s.hostStopped = false → s.platform.driverMayFail = false →
    ∃ n is k, n ≤ 2 * (frameSyms s.dev s.mem).length + 6 ∧
      Host.Core.run Sys2Proof.core n s = .next
        { s with
          wire := s.wire ++ (.frameStart :: (frameSyms s.dev s.mem).map .sym ++ [.frameEnd])
          result := .ok, hostPos := s.hostPos + 1, inputs := is, drawCount := k }

/-- The same for a command that paints first (R118, R119, R120): one frame, of the painted buffer. -/
def Obligations.PaintSendsOneFrame : Prop :=
  ∀ (s u : State) (i : Instr), s.Inv → s.devState = .live → s.dev.chState = .disabled → s.dev.atRest →
    s.hostSub = .start → s.currentCommand = some i → multiStep i = true → i ≠ .refresh → s.hostStopped = false →
    s.platform.driverMayFail = false → exec i s = .next u → u.hostSub = .enable →
    ∃ n is k, n ≤ 2 * (frameSyms s.dev u.mem).length + 7 ∧
      Host.Core.run Sys2Proof.core n s = .next
        { s with
          mem := u.mem
          wire := s.wire ++ (.frameStart :: (frameSyms s.dev u.mem).map .sym ++ [.frameEnd])
          result := .ok, hostPos := s.hostPos + 1, inputs := is, drawCount := k }

/-- DESTROY (R122): refused with DEVICE_ERROR while the channel is ENABLED or TRANSMITTING or its delete fails, else the
device with its buffer, memory block and registers ceases to exist; the wire stays. That the model then holds zeros, a
DISABLED channel and an empty buffer is its own choice (log 12), and so is the record of the pin's drive (log 20). -/
def Obligations.DestroyResult : Prop :=
  encode .destroy = 0x0000000000000007#64 ∧
  ∀ s : State, exec .destroy s = .next
    (match s.devState with
    | .none => { s with result := .invalidArgument, hostSub := .start, hostPos := s.hostPos + 1 }
    | .destroyed => { s with faultDangling := true }
    | .live =>
      match s.dev.chState with
      | .deleted =>
        { s with
          devState := .destroyed, dev := Device.absent, mem := []
          pinMarks := s.pinMarks ++ [⟨s.wire.length, none⟩]
          result := .ok, hostSub := .start, hostPos := s.hostPos + 1 }
      | .disabled =>
        if s.driverFails.1 then
          { s.driverFails.2 with result := .deviceError, hostSub := .start, hostPos := s.hostPos + 1 }
        else
          { s.driverFails.2 with
            devState := .destroyed, dev := Device.absent, mem := []
            pinMarks := s.pinMarks ++ [⟨s.wire.length, none⟩]
            result := .ok, hostSub := .start, hostPos := s.hostPos + 1 }
      | _ => { s with result := .deviceError, hostSub := .start, hostPos := s.hostPos + 1 })
end

