-- ==== Sys2Proof/Laws/Encoding.lean ====
section
/-! SUPPORT. What the fields of a word built from placed operands read as (30_encoding.md R64). -/

namespace Sys2Proof

/-- A field of two words combined. -/
theorem field_or (a b : CmdWord) (lo len : Nat) : field (a ||| b) lo len = field a lo len ||| field b lo len := by
  apply BitVec.eq_of_getLsbD_eq
  intro i hi
  simp [field, hi]

/-- The field an operand was placed in. -/
theorem field_place {n : Nat} (v : BitVec n) (lo : Nat) (h : lo + n ≤ 64) : field (place v lo) lo n = v := by
  apply BitVec.eq_of_getLsbD_eq
  intro i hi
  have : lo + i < 64 := by omega
  simp [field, place, hi, this]

/-- A field that ends below a placed operand, or begins above it. -/
theorem field_place_of_disjoint {n : Nat} (v : BitVec n) (lo lo' len : Nat) (h : lo' + len ≤ lo ∨ lo + n ≤ lo') :
    field (place v lo) lo' len = 0#len := by
  apply BitVec.eq_of_getLsbD_eq
  intro i hi
  simp only [field, place, BitVec.getLsbD_extractLsb', BitVec.getLsbD_shiftLeft, BitVec.getLsbD_setWidth, hi,
    BitVec.getLsbD_zero]
  rcases h with h | h
  · simp [show lo' + i < lo by omega]
  · simp [BitVec.getLsbD_of_ge v (lo' + i - lo) (by omega)]

/-- An operand placed outside a mask. -/
theorem place_masked {n : Nat} (v : BitVec n) (lo : Nat) (m : CmdWord) (h : (m >>> lo).setWidth n = 0#n) :
    place v lo &&& m = 0#64 := by
  apply BitVec.eq_of_getLsbD_eq
  intro i hi
  have hm := congrArg (fun x => BitVec.getLsbD x (i - lo)) h
  simp only [BitVec.getLsbD_setWidth, BitVec.getLsbD_ushiftRight, BitVec.getLsbD_zero] at hm
  simp only [place, BitVec.getLsbD_and, BitVec.getLsbD_shiftLeft, BitVec.getLsbD_setWidth, BitVec.getLsbD_zero]
  by_cases hlo : i < lo
  · simp [hlo]
  · by_cases hn : i - lo < n
    · rw [show lo + (i - lo) = i by omega] at hm
      simp_all
    · simp [BitVec.getLsbD_of_ge v (i - lo) (by omega)]

/-- Masking a combined word. -/
theorem or_masked (a b m : CmdWord) : (a ||| b) &&& m = a &&& m ||| b &&& m := by
  apply BitVec.eq_of_getLsbD_eq
  intro i hi
  simp [Bool.and_or_distrib_right]

end Sys2Proof
end

