-- ==== Sys2Proof/Laws/Memory.lean ====
section
/-! SUPPORT. The laws of the pixel buffer: a read after a write, what a write leaves alone, and that every memory
operation keeps the canonical form. -/

namespace Sys2Proof.Machine

@[simp] theorem Memory.read_nil (a : Nat) : Memory.read [] a = 0#8 := rfl

theorem Memory.read_cons (k : Nat) (v : Byte) (m : Memory) (a : Nat) :
    Memory.read ((k, v) :: m) a = if k = a then v else Memory.read m a := rfl

theorem Memory.erase_cons (k : Nat) (v : Byte) (m : Memory) (a : Nat) :
    Memory.erase ((k, v) :: m) a = if k = a then Memory.erase m a else (k, v) :: Memory.erase m a := by
  by_cases h : k = a <;> simp [Memory.erase, h]

@[simp] theorem Memory.read_erase_same (m : Memory) (a : Nat) : Memory.read (Memory.erase m a) a = 0#8 := by
  induction m with
  | nil => rfl
  | cons c m ih =>
    obtain ⟨k, v⟩ := c
    rw [Memory.erase_cons]
    split
    · exact ih
    · rename_i h; rw [Memory.read_cons, if_neg h, ih]

theorem Memory.read_erase_other (m : Memory) {a b : Nat} (h : b ≠ a) :
    Memory.read (Memory.erase m a) b = Memory.read m b := by
  induction m with
  | nil => rfl
  | cons c m ih =>
    obtain ⟨k, v⟩ := c
    rw [Memory.erase_cons, Memory.read_cons]
    split
    · rename_i hk; rw [ih, if_neg (by omega)]
    · rw [Memory.read_cons, ih]

@[simp] theorem Memory.read_insert_erase_same (m : Memory) (a : Nat) (v : Byte) :
    Memory.read (Memory.insert (Memory.erase m a) a v) a = v := by
  induction m with
  | nil => simp [Memory.erase, Memory.insert, Memory.read]
  | cons c m ih =>
    obtain ⟨k, u⟩ := c
    rw [Memory.erase_cons]
    split
    · exact ih
    · rename_i hk
      simp only [Memory.insert]
      split
      · simp [Memory.read_cons]
      · rw [Memory.read_cons, if_neg hk, ih]

theorem Memory.read_insert_other (m : Memory) {a b : Nat} (v : Byte) (h : b ≠ a) :
    Memory.read (Memory.insert m a v) b = Memory.read m b := by
  induction m with
  | nil => simp only [Memory.insert, Memory.read_cons]; rw [if_neg (by omega)]
  | cons c m ih =>
    obtain ⟨k, u⟩ := c
    simp only [Memory.insert]
    split
    · rw [Memory.read_cons, if_neg (by omega)]
    · rw [Memory.read_cons, Memory.read_cons, ih]

/-- A read after a write to the same index gives the byte written. -/
@[simp] theorem Memory.read_write_same (m : Memory) (a : Nat) (v : Byte) : Memory.read (Memory.write m a v) a = v := by
  unfold Memory.write
  split
  · rename_i h; simp [h]
  · simp

/-- A write leaves every other index alone. -/
theorem Memory.read_write_other (m : Memory) {a b : Nat} (v : Byte) (h : b ≠ a) :
    Memory.read (Memory.write m a v) b = Memory.read m b := by
  unfold Memory.write
  split
  · exact Memory.read_erase_other m h
  · rw [Memory.read_insert_other _ _ h, Memory.read_erase_other m h]

/-- Writing bytes leaves every index outside them alone. -/
theorem Memory.read_writeBytes_outside (m : Memory) (a : Nat) (vs : List Byte) {b : Nat}
    (h : b < a ∨ a + vs.length ≤ b) : Memory.read (Memory.writeBytes m a vs) b = Memory.read m b := by
  induction vs generalizing m a with
  | nil => rfl
  | cons v vs ih =>
    simp only [List.length_cons] at h
    rw [Memory.writeBytes, ih _ _ (by omega), Memory.read_write_other _ _ (by omega)]

/-- Writing bytes writes each at its place. -/
theorem Memory.read_writeBytes_inside (m : Memory) (a : Nat) (vs : List Byte) (i : Nat) (h : i < vs.length) :
    Memory.read (Memory.writeBytes m a vs) (a + i) = vs[i] := by
  induction vs generalizing m a i with
  | nil => exact absurd h (Nat.not_lt_zero _)
  | cons v vs ih =>
    cases i with
    | zero => rw [Memory.writeBytes, Memory.read_writeBytes_outside _ _ _ (by omega)]; simp
    | succ i =>
      have h' : i < vs.length := by simpa using h
      have := ih (Memory.write m a v) (a + 1) i h'
      rw [Memory.writeBytes, show a + (i + 1) = a + 1 + i by omega, this]
      rfl

/-! ## The canonical form -/

theorem Memory.above_mono {a b : Nat} (h : a ≤ b) (m : Memory) (hm : Memory.above b m = true) :
    Memory.above a m = true := by
  induction m with
  | nil => rfl
  | cons c m ih =>
    obtain ⟨k, v⟩ := c
    simp only [Memory.above, Bool.and_eq_true, decide_eq_true_eq] at hm ⊢
    exact ⟨by omega, ih hm.2⟩

theorem Memory.above_erase {a b : Nat} (m : Memory) (hm : Memory.above a m = true) :
    Memory.above a (Memory.erase m b) = true := by
  induction m with
  | nil => rfl
  | cons c m ih =>
    obtain ⟨k, v⟩ := c
    simp only [Memory.above, Bool.and_eq_true, decide_eq_true_eq] at hm
    rw [Memory.erase_cons]
    split
    · exact ih hm.2
    · simp only [Memory.above, Bool.and_eq_true, decide_eq_true_eq]; exact ⟨hm.1, ih hm.2⟩

theorem Memory.wf_erase (m : Memory) (a : Nat) (hm : Memory.wf m = true) : Memory.wf (Memory.erase m a) = true := by
  induction m with
  | nil => rfl
  | cons c m ih =>
    obtain ⟨k, v⟩ := c
    simp only [Memory.wf, Bool.and_eq_true, decide_eq_true_eq] at hm
    rw [Memory.erase_cons]
    split
    · exact ih hm.2
    · simp only [Memory.wf, Bool.and_eq_true, decide_eq_true_eq]
      exact ⟨⟨hm.1.1, Memory.above_erase m hm.1.2⟩, ih hm.2⟩

theorem Memory.above_insert {b a : Nat} (v : Byte) (hab : b < a) (m : Memory) (hm : Memory.above b m = true) :
    Memory.above b (Memory.insert m a v) = true := by
  induction m with
  | nil => simp [Memory.insert, Memory.above, hab]
  | cons c m ih =>
    obtain ⟨k, u⟩ := c
    simp only [Memory.above, Bool.and_eq_true, decide_eq_true_eq] at hm
    simp only [Memory.insert]
    split
    · simp [Memory.above, hab, hm.1, hm.2]
    · simp only [Memory.above, Bool.and_eq_true, decide_eq_true_eq]; exact ⟨hm.1, ih hm.2⟩

theorem Memory.wf_insert (m : Memory) (a : Nat) (v : Byte) (hv : v ≠ 0#8)
    (ha : ∀ c ∈ m, c.1 ≠ a) (hm : Memory.wf m = true) : Memory.wf (Memory.insert m a v) = true := by
  induction m with
  | nil => simp [Memory.insert, Memory.wf, Memory.above, hv]
  | cons c m ih =>
    obtain ⟨k, u⟩ := c
    have hk : k ≠ a := ha (k, u) (by simp)
    simp only [Memory.wf, Bool.and_eq_true, decide_eq_true_eq] at hm
    simp only [Memory.insert]
    split
    · rename_i hlt
      simp only [Memory.wf, Memory.above, Bool.and_eq_true, decide_eq_true_eq]
      exact ⟨⟨hv, hlt, Memory.above_mono (Nat.le_of_lt hlt) m hm.1.2⟩, hm⟩
    · rename_i hnlt
      simp only [Memory.wf, Bool.and_eq_true, decide_eq_true_eq]
      exact ⟨⟨hm.1.1, Memory.above_insert v (by omega) m hm.1.2⟩,
        ih (fun c hc => ha c (List.mem_cons_of_mem _ hc)) hm.2⟩

theorem Memory.erase_no_cell (m : Memory) (a : Nat) : ∀ c ∈ Memory.erase m a, c.1 ≠ a := by
  intro c hc
  simpa [Memory.erase] using (List.mem_filter.mp hc).2

/-- A write keeps the canonical form. -/
theorem Memory.wf_write (m : Memory) (a : Nat) (v : Byte) (hm : Memory.wf m = true) :
    Memory.wf (Memory.write m a v) = true := by
  unfold Memory.write
  split
  · exact Memory.wf_erase m a hm
  · rename_i hv
    exact Memory.wf_insert _ a v hv (Memory.erase_no_cell m a) (Memory.wf_erase m a hm)

/-- Writing bytes keeps the canonical form. -/
theorem Memory.wf_writeBytes (m : Memory) (a : Nat) (vs : List Byte) (hm : Memory.wf m = true) :
    Memory.wf (Memory.writeBytes m a vs) = true := by
  induction vs generalizing m a with
  | nil => exact hm
  | cons v vs ih => exact ih _ _ (Memory.wf_write m a v hm)

/-- The pixel buffer after reset is in canonical form. -/
theorem Memory.wf_reset (p : Platform) : Memory.wf (State.resetOn p).mem = true := rfl

/-! ## Cells stay inside the buffer -/

theorem Memory.below_erase {n : Nat} (m : Memory) (a : Nat) (hm : Memory.below n m = true) :
    Memory.below n (Memory.erase m a) = true := by
  simp only [Memory.below, List.all_eq_true] at hm ⊢
  exact fun c hc => hm c (List.mem_filter.mp hc).1

theorem Memory.below_insert {n : Nat} (m : Memory) {a : Nat} (v : Byte) (ha : a < n)
    (hm : Memory.below n m = true) : Memory.below n (Memory.insert m a v) = true := by
  induction m with
  | nil => simp [Memory.insert, Memory.below, ha]
  | cons c m ih =>
    obtain ⟨k, u⟩ := c
    simp only [Memory.below, List.all_cons, Bool.and_eq_true] at hm
    simp only [Memory.insert]
    split
    · simp only [Memory.below, List.all_cons, Bool.and_eq_true, decide_eq_true_eq]
      exact ⟨ha, by simpa using hm.1, hm.2⟩
    · simp only [Memory.below, List.all_cons, Bool.and_eq_true]; exact ⟨hm.1, ih hm.2⟩

/-- Writing bytes below `n` leaves every cell below `n`. -/
theorem Memory.below_writeBytes {n : Nat} (m : Memory) (a : Nat) (vs : List Byte) (h : a + vs.length ≤ n)
    (hm : Memory.below n m = true) : Memory.below n (Memory.writeBytes m a vs) = true := by
  induction vs generalizing m a with
  | nil => exact hm
  | cons v vs ih =>
    simp only [List.length_cons] at h
    refine ih _ _ (by omega) ?_
    unfold Memory.write
    split
    · exact Memory.below_erase m a hm
    · exact Memory.below_insert _ v (by omega) (Memory.below_erase m a hm)

/-! ## Colour fills (43_strip_device.md R116) -/

@[simp] theorem fillBytes_length (n : Nat) (r g b : Byte) : (fillBytes n r g b).length = 3 * n := by
  induction n with
  | zero => rfl
  | succ n ih => simp [fillBytes, pixelBytes, ih]; omega

end Sys2Proof.Machine
end

