-- ==== Sys2Proof/Laws/State.lean ====
section
/-! SUPPORT. What each update of the state does to each field, and that draws leave every field but their own. -/

namespace Sys2Proof.Machine

variable (s : State)

/-! ## returnCode -/

@[simp] theorem State.returnCode_platform (c : ResultCode) : (s.returnCode c).platform = s.platform := rfl
@[simp] theorem State.returnCode_program (c : ResultCode) : (s.returnCode c).program = s.program := rfl
@[simp] theorem State.returnCode_hostPos (c : ResultCode) : (s.returnCode c).hostPos = s.hostPos + 1 := rfl
@[simp] theorem State.returnCode_hostSub (c : ResultCode) : (s.returnCode c).hostSub = HostSub.start := rfl
@[simp] theorem State.returnCode_hostHeld (c : ResultCode) : (s.returnCode c).hostHeld = s.hostHeld := rfl
@[simp] theorem State.returnCode_result (c : ResultCode) : (s.returnCode c).result = c := rfl
@[simp] theorem State.returnCode_faultRace (c : ResultCode) : (s.returnCode c).faultRace = s.faultRace := rfl
@[simp] theorem State.returnCode_faultDangling (c : ResultCode) : (s.returnCode c).faultDangling = s.faultDangling := rfl
@[simp] theorem State.returnCode_faultRefused (c : ResultCode) : (s.returnCode c).faultRefused = s.faultRefused := rfl
@[simp] theorem State.returnCode_cfg (c : ResultCode) : (s.returnCode c).cfg = s.cfg := rfl
@[simp] theorem State.returnCode_devState (c : ResultCode) : (s.returnCode c).devState = s.devState := rfl
@[simp] theorem State.returnCode_dev (c : ResultCode) : (s.returnCode c).dev = s.dev := rfl
@[simp] theorem State.returnCode_mem (c : ResultCode) : (s.returnCode c).mem = s.mem := rfl
@[simp] theorem State.returnCode_wire (c : ResultCode) : (s.returnCode c).wire = s.wire := rfl
@[simp] theorem State.returnCode_pinMarks (c : ResultCode) : (s.returnCode c).pinMarks = s.pinMarks := rfl
@[simp] theorem State.returnCode_reads (c : ResultCode) : (s.returnCode c).reads = s.reads := rfl
@[simp] theorem State.returnCode_inputs (c : ResultCode) : (s.returnCode c).inputs = s.inputs := rfl
@[simp] theorem State.returnCode_drawCount (c : ResultCode) : (s.returnCode c).drawCount = s.drawCount := rfl

/-! ## raiseDangling -/

@[simp] theorem State.raiseDangling_platform : s.raiseDangling.platform = s.platform := rfl
@[simp] theorem State.raiseDangling_program : s.raiseDangling.program = s.program := rfl
@[simp] theorem State.raiseDangling_hostPos : s.raiseDangling.hostPos = s.hostPos := rfl
@[simp] theorem State.raiseDangling_hostSub : s.raiseDangling.hostSub = s.hostSub := rfl
@[simp] theorem State.raiseDangling_hostHeld : s.raiseDangling.hostHeld = s.hostHeld := rfl
@[simp] theorem State.raiseDangling_result : s.raiseDangling.result = s.result := rfl
@[simp] theorem State.raiseDangling_faultRace : s.raiseDangling.faultRace = s.faultRace := rfl
@[simp] theorem State.raiseDangling_faultDangling : s.raiseDangling.faultDangling = true := rfl
@[simp] theorem State.raiseDangling_faultRefused : s.raiseDangling.faultRefused = s.faultRefused := rfl
@[simp] theorem State.raiseDangling_cfg : s.raiseDangling.cfg = s.cfg := rfl
@[simp] theorem State.raiseDangling_devState : s.raiseDangling.devState = s.devState := rfl
@[simp] theorem State.raiseDangling_dev : s.raiseDangling.dev = s.dev := rfl
@[simp] theorem State.raiseDangling_mem : s.raiseDangling.mem = s.mem := rfl
@[simp] theorem State.raiseDangling_wire : s.raiseDangling.wire = s.wire := rfl
@[simp] theorem State.raiseDangling_pinMarks : s.raiseDangling.pinMarks = s.pinMarks := rfl
@[simp] theorem State.raiseDangling_reads : s.raiseDangling.reads = s.reads := rfl
@[simp] theorem State.raiseDangling_inputs : s.raiseDangling.inputs = s.inputs := rfl
@[simp] theorem State.raiseDangling_drawCount : s.raiseDangling.drawCount = s.drawCount := rfl

/-! ## refuse -/

@[simp] theorem State.refuse_platform : s.refuse.platform = s.platform := rfl
@[simp] theorem State.refuse_program : s.refuse.program = s.program := rfl
@[simp] theorem State.refuse_hostPos : s.refuse.hostPos = s.hostPos := rfl
@[simp] theorem State.refuse_hostSub : s.refuse.hostSub = s.hostSub := rfl
@[simp] theorem State.refuse_hostHeld : s.refuse.hostHeld = s.hostHeld := rfl
@[simp] theorem State.refuse_result : s.refuse.result = s.result := rfl
@[simp] theorem State.refuse_faultRace : s.refuse.faultRace = s.faultRace := rfl
@[simp] theorem State.refuse_faultDangling : s.refuse.faultDangling = s.faultDangling := rfl
@[simp] theorem State.refuse_faultRefused : s.refuse.faultRefused = true := rfl
@[simp] theorem State.refuse_cfg : s.refuse.cfg = s.cfg := rfl
@[simp] theorem State.refuse_devState : s.refuse.devState = s.devState := rfl
@[simp] theorem State.refuse_dev : s.refuse.dev = s.dev := rfl
@[simp] theorem State.refuse_mem : s.refuse.mem = s.mem := rfl
@[simp] theorem State.refuse_wire : s.refuse.wire = s.wire := rfl
@[simp] theorem State.refuse_pinMarks : s.refuse.pinMarks = s.pinMarks := rfl
@[simp] theorem State.refuse_reads : s.refuse.reads = s.reads := rfl
@[simp] theorem State.refuse_inputs : s.refuse.inputs = s.inputs := rfl
@[simp] theorem State.refuse_drawCount : s.refuse.drawCount = s.drawCount := rfl

/-! ## finishAccess -/

@[simp] theorem State.finishAccess_platform : s.finishAccess.platform = s.platform := rfl
@[simp] theorem State.finishAccess_program : s.finishAccess.program = s.program := rfl
@[simp] theorem State.finishAccess_hostPos : s.finishAccess.hostPos = s.hostPos + 1 := rfl
@[simp] theorem State.finishAccess_hostSub : s.finishAccess.hostSub = s.hostSub := rfl
@[simp] theorem State.finishAccess_hostHeld : s.finishAccess.hostHeld = s.hostHeld := rfl
@[simp] theorem State.finishAccess_result : s.finishAccess.result = s.result := rfl
@[simp] theorem State.finishAccess_faultRace : s.finishAccess.faultRace = s.faultRace := rfl
@[simp] theorem State.finishAccess_faultDangling : s.finishAccess.faultDangling = s.faultDangling := rfl
@[simp] theorem State.finishAccess_faultRefused : s.finishAccess.faultRefused = s.faultRefused := rfl
@[simp] theorem State.finishAccess_cfg : s.finishAccess.cfg = s.cfg := rfl
@[simp] theorem State.finishAccess_devState : s.finishAccess.devState = s.devState := rfl
@[simp] theorem State.finishAccess_dev : s.finishAccess.dev = s.dev := rfl
@[simp] theorem State.finishAccess_mem : s.finishAccess.mem = s.mem := rfl
@[simp] theorem State.finishAccess_wire : s.finishAccess.wire = s.wire := rfl
@[simp] theorem State.finishAccess_pinMarks : s.finishAccess.pinMarks = s.pinMarks := rfl
@[simp] theorem State.finishAccess_reads : s.finishAccess.reads = s.reads := rfl
@[simp] theorem State.finishAccess_inputs : s.finishAccess.inputs = s.inputs := rfl
@[simp] theorem State.finishAccess_drawCount : s.finishAccess.drawCount = s.drawCount := rfl

/-! ## setChState -/

@[simp] theorem State.setChState_platform (c : ChState) : (s.setChState c).platform = s.platform := rfl
@[simp] theorem State.setChState_program (c : ChState) : (s.setChState c).program = s.program := rfl
@[simp] theorem State.setChState_hostPos (c : ChState) : (s.setChState c).hostPos = s.hostPos := rfl
@[simp] theorem State.setChState_hostSub (c : ChState) : (s.setChState c).hostSub = s.hostSub := rfl
@[simp] theorem State.setChState_hostHeld (c : ChState) : (s.setChState c).hostHeld = s.hostHeld := rfl
@[simp] theorem State.setChState_result (c : ChState) : (s.setChState c).result = s.result := rfl
@[simp] theorem State.setChState_faultRace (c : ChState) : (s.setChState c).faultRace = s.faultRace := rfl
@[simp] theorem State.setChState_faultDangling (c : ChState) : (s.setChState c).faultDangling = s.faultDangling := rfl
@[simp] theorem State.setChState_faultRefused (c : ChState) : (s.setChState c).faultRefused = s.faultRefused := rfl
@[simp] theorem State.setChState_cfg (c : ChState) : (s.setChState c).cfg = s.cfg := rfl
@[simp] theorem State.setChState_devState (c : ChState) : (s.setChState c).devState = s.devState := rfl
@[simp] theorem State.setChState_dev (c : ChState) : (s.setChState c).dev = { s.dev with chState := c } := rfl
@[simp] theorem State.setChState_mem (c : ChState) : (s.setChState c).mem = s.mem := rfl
@[simp] theorem State.setChState_wire (c : ChState) : (s.setChState c).wire = s.wire := rfl
@[simp] theorem State.setChState_pinMarks (c : ChState) : (s.setChState c).pinMarks = s.pinMarks := rfl
@[simp] theorem State.setChState_reads (c : ChState) : (s.setChState c).reads = s.reads := rfl
@[simp] theorem State.setChState_inputs (c : ChState) : (s.setChState c).inputs = s.inputs := rfl
@[simp] theorem State.setChState_drawCount (c : ChState) : (s.setChState c).drawCount = s.drawCount := rfl

/-! ## setEncState -/

@[simp] theorem State.setEncState_platform (e : EncState) : (s.setEncState e).platform = s.platform := rfl
@[simp] theorem State.setEncState_program (e : EncState) : (s.setEncState e).program = s.program := rfl
@[simp] theorem State.setEncState_hostPos (e : EncState) : (s.setEncState e).hostPos = s.hostPos := rfl
@[simp] theorem State.setEncState_hostSub (e : EncState) : (s.setEncState e).hostSub = s.hostSub := rfl
@[simp] theorem State.setEncState_hostHeld (e : EncState) : (s.setEncState e).hostHeld = s.hostHeld := rfl
@[simp] theorem State.setEncState_result (e : EncState) : (s.setEncState e).result = s.result := rfl
@[simp] theorem State.setEncState_faultRace (e : EncState) : (s.setEncState e).faultRace = s.faultRace := rfl
@[simp] theorem State.setEncState_faultDangling (e : EncState) : (s.setEncState e).faultDangling = s.faultDangling := rfl
@[simp] theorem State.setEncState_faultRefused (e : EncState) : (s.setEncState e).faultRefused = s.faultRefused := rfl
@[simp] theorem State.setEncState_cfg (e : EncState) : (s.setEncState e).cfg = s.cfg := rfl
@[simp] theorem State.setEncState_devState (e : EncState) : (s.setEncState e).devState = s.devState := rfl
@[simp] theorem State.setEncState_dev (e : EncState) : (s.setEncState e).dev = { s.dev with encState := e } := rfl
@[simp] theorem State.setEncState_mem (e : EncState) : (s.setEncState e).mem = s.mem := rfl
@[simp] theorem State.setEncState_wire (e : EncState) : (s.setEncState e).wire = s.wire := rfl
@[simp] theorem State.setEncState_pinMarks (e : EncState) : (s.setEncState e).pinMarks = s.pinMarks := rfl
@[simp] theorem State.setEncState_reads (e : EncState) : (s.setEncState e).reads = s.reads := rfl
@[simp] theorem State.setEncState_inputs (e : EncState) : (s.setEncState e).inputs = s.inputs := rfl
@[simp] theorem State.setEncState_drawCount (e : EncState) : (s.setEncState e).drawCount = s.drawCount := rfl

/-! ## setEncDone -/

@[simp] theorem State.setEncDone_platform (b : Bool) : (s.setEncDone b).platform = s.platform := rfl
@[simp] theorem State.setEncDone_program (b : Bool) : (s.setEncDone b).program = s.program := rfl
@[simp] theorem State.setEncDone_hostPos (b : Bool) : (s.setEncDone b).hostPos = s.hostPos := rfl
@[simp] theorem State.setEncDone_hostSub (b : Bool) : (s.setEncDone b).hostSub = s.hostSub := rfl
@[simp] theorem State.setEncDone_hostHeld (b : Bool) : (s.setEncDone b).hostHeld = s.hostHeld := rfl
@[simp] theorem State.setEncDone_result (b : Bool) : (s.setEncDone b).result = s.result := rfl
@[simp] theorem State.setEncDone_faultRace (b : Bool) : (s.setEncDone b).faultRace = s.faultRace := rfl
@[simp] theorem State.setEncDone_faultDangling (b : Bool) : (s.setEncDone b).faultDangling = s.faultDangling := rfl
@[simp] theorem State.setEncDone_faultRefused (b : Bool) : (s.setEncDone b).faultRefused = s.faultRefused := rfl
@[simp] theorem State.setEncDone_cfg (b : Bool) : (s.setEncDone b).cfg = s.cfg := rfl
@[simp] theorem State.setEncDone_devState (b : Bool) : (s.setEncDone b).devState = s.devState := rfl
@[simp] theorem State.setEncDone_dev (b : Bool) : (s.setEncDone b).dev = { s.dev with encDone := b } := rfl
@[simp] theorem State.setEncDone_mem (b : Bool) : (s.setEncDone b).mem = s.mem := rfl
@[simp] theorem State.setEncDone_wire (b : Bool) : (s.setEncDone b).wire = s.wire := rfl
@[simp] theorem State.setEncDone_pinMarks (b : Bool) : (s.setEncDone b).pinMarks = s.pinMarks := rfl
@[simp] theorem State.setEncDone_reads (b : Bool) : (s.setEncDone b).reads = s.reads := rfl
@[simp] theorem State.setEncDone_inputs (b : Bool) : (s.setEncDone b).inputs = s.inputs := rfl
@[simp] theorem State.setEncDone_drawCount (b : Bool) : (s.setEncDone b).drawCount = s.drawCount := rfl

/-! ## setBytesCursor -/

@[simp] theorem State.setBytesCursor_platform (n : Nat) : (s.setBytesCursor n).platform = s.platform := rfl
@[simp] theorem State.setBytesCursor_program (n : Nat) : (s.setBytesCursor n).program = s.program := rfl
@[simp] theorem State.setBytesCursor_hostPos (n : Nat) : (s.setBytesCursor n).hostPos = s.hostPos := rfl
@[simp] theorem State.setBytesCursor_hostSub (n : Nat) : (s.setBytesCursor n).hostSub = s.hostSub := rfl
@[simp] theorem State.setBytesCursor_hostHeld (n : Nat) : (s.setBytesCursor n).hostHeld = s.hostHeld := rfl
@[simp] theorem State.setBytesCursor_result (n : Nat) : (s.setBytesCursor n).result = s.result := rfl
@[simp] theorem State.setBytesCursor_faultRace (n : Nat) : (s.setBytesCursor n).faultRace = s.faultRace := rfl
@[simp] theorem State.setBytesCursor_faultDangling (n : Nat) : (s.setBytesCursor n).faultDangling = s.faultDangling := rfl
@[simp] theorem State.setBytesCursor_faultRefused (n : Nat) : (s.setBytesCursor n).faultRefused = s.faultRefused := rfl
@[simp] theorem State.setBytesCursor_cfg (n : Nat) : (s.setBytesCursor n).cfg = s.cfg := rfl
@[simp] theorem State.setBytesCursor_devState (n : Nat) : (s.setBytesCursor n).devState = s.devState := rfl
@[simp] theorem State.setBytesCursor_dev (n : Nat) : (s.setBytesCursor n).dev = { s.dev with bytesCursor := n } := rfl
@[simp] theorem State.setBytesCursor_mem (n : Nat) : (s.setBytesCursor n).mem = s.mem := rfl
@[simp] theorem State.setBytesCursor_wire (n : Nat) : (s.setBytesCursor n).wire = s.wire := rfl
@[simp] theorem State.setBytesCursor_pinMarks (n : Nat) : (s.setBytesCursor n).pinMarks = s.pinMarks := rfl
@[simp] theorem State.setBytesCursor_reads (n : Nat) : (s.setBytesCursor n).reads = s.reads := rfl
@[simp] theorem State.setBytesCursor_inputs (n : Nat) : (s.setBytesCursor n).inputs = s.inputs := rfl
@[simp] theorem State.setBytesCursor_drawCount (n : Nat) : (s.setBytesCursor n).drawCount = s.drawCount := rfl

/-! ## setCopyCursor -/

@[simp] theorem State.setCopyCursor_platform (n : Nat) : (s.setCopyCursor n).platform = s.platform := rfl
@[simp] theorem State.setCopyCursor_program (n : Nat) : (s.setCopyCursor n).program = s.program := rfl
@[simp] theorem State.setCopyCursor_hostPos (n : Nat) : (s.setCopyCursor n).hostPos = s.hostPos := rfl
@[simp] theorem State.setCopyCursor_hostSub (n : Nat) : (s.setCopyCursor n).hostSub = s.hostSub := rfl
@[simp] theorem State.setCopyCursor_hostHeld (n : Nat) : (s.setCopyCursor n).hostHeld = s.hostHeld := rfl
@[simp] theorem State.setCopyCursor_result (n : Nat) : (s.setCopyCursor n).result = s.result := rfl
@[simp] theorem State.setCopyCursor_faultRace (n : Nat) : (s.setCopyCursor n).faultRace = s.faultRace := rfl
@[simp] theorem State.setCopyCursor_faultDangling (n : Nat) : (s.setCopyCursor n).faultDangling = s.faultDangling := rfl
@[simp] theorem State.setCopyCursor_faultRefused (n : Nat) : (s.setCopyCursor n).faultRefused = s.faultRefused := rfl
@[simp] theorem State.setCopyCursor_cfg (n : Nat) : (s.setCopyCursor n).cfg = s.cfg := rfl
@[simp] theorem State.setCopyCursor_devState (n : Nat) : (s.setCopyCursor n).devState = s.devState := rfl
@[simp] theorem State.setCopyCursor_dev (n : Nat) : (s.setCopyCursor n).dev = { s.dev with copyCursor := n } := rfl
@[simp] theorem State.setCopyCursor_mem (n : Nat) : (s.setCopyCursor n).mem = s.mem := rfl
@[simp] theorem State.setCopyCursor_wire (n : Nat) : (s.setCopyCursor n).wire = s.wire := rfl
@[simp] theorem State.setCopyCursor_pinMarks (n : Nat) : (s.setCopyCursor n).pinMarks = s.pinMarks := rfl
@[simp] theorem State.setCopyCursor_reads (n : Nat) : (s.setCopyCursor n).reads = s.reads := rfl
@[simp] theorem State.setCopyCursor_inputs (n : Nat) : (s.setCopyCursor n).inputs = s.inputs := rfl
@[simp] theorem State.setCopyCursor_drawCount (n : Nat) : (s.setCopyCursor n).drawCount = s.drawCount := rfl

/-! ## setMemblk -/

@[simp] theorem State.setMemblk_platform (b : List SymWord) : (s.setMemblk b).platform = s.platform := rfl
@[simp] theorem State.setMemblk_program (b : List SymWord) : (s.setMemblk b).program = s.program := rfl
@[simp] theorem State.setMemblk_hostPos (b : List SymWord) : (s.setMemblk b).hostPos = s.hostPos := rfl
@[simp] theorem State.setMemblk_hostSub (b : List SymWord) : (s.setMemblk b).hostSub = s.hostSub := rfl
@[simp] theorem State.setMemblk_hostHeld (b : List SymWord) : (s.setMemblk b).hostHeld = s.hostHeld := rfl
@[simp] theorem State.setMemblk_result (b : List SymWord) : (s.setMemblk b).result = s.result := rfl
@[simp] theorem State.setMemblk_faultRace (b : List SymWord) : (s.setMemblk b).faultRace = s.faultRace := rfl
@[simp] theorem State.setMemblk_faultDangling (b : List SymWord) : (s.setMemblk b).faultDangling = s.faultDangling := rfl
@[simp] theorem State.setMemblk_faultRefused (b : List SymWord) : (s.setMemblk b).faultRefused = s.faultRefused := rfl
@[simp] theorem State.setMemblk_cfg (b : List SymWord) : (s.setMemblk b).cfg = s.cfg := rfl
@[simp] theorem State.setMemblk_devState (b : List SymWord) : (s.setMemblk b).devState = s.devState := rfl
@[simp] theorem State.setMemblk_dev (b : List SymWord) : (s.setMemblk b).dev = { s.dev with memblk := b } := rfl
@[simp] theorem State.setMemblk_mem (b : List SymWord) : (s.setMemblk b).mem = s.mem := rfl
@[simp] theorem State.setMemblk_wire (b : List SymWord) : (s.setMemblk b).wire = s.wire := rfl
@[simp] theorem State.setMemblk_pinMarks (b : List SymWord) : (s.setMemblk b).pinMarks = s.pinMarks := rfl
@[simp] theorem State.setMemblk_reads (b : List SymWord) : (s.setMemblk b).reads = s.reads := rfl
@[simp] theorem State.setMemblk_inputs (b : List SymWord) : (s.setMemblk b).inputs = s.inputs := rfl
@[simp] theorem State.setMemblk_drawCount (b : List SymWord) : (s.setMemblk b).drawCount = s.drawCount := rfl

/-! ## pushSyms -/

@[simp] theorem State.pushSyms_platform (ws : List SymWord) : (s.pushSyms ws).platform = s.platform := rfl
@[simp] theorem State.pushSyms_program (ws : List SymWord) : (s.pushSyms ws).program = s.program := rfl
@[simp] theorem State.pushSyms_hostPos (ws : List SymWord) : (s.pushSyms ws).hostPos = s.hostPos := rfl
@[simp] theorem State.pushSyms_hostSub (ws : List SymWord) : (s.pushSyms ws).hostSub = s.hostSub := rfl
@[simp] theorem State.pushSyms_hostHeld (ws : List SymWord) : (s.pushSyms ws).hostHeld = s.hostHeld := rfl
@[simp] theorem State.pushSyms_result (ws : List SymWord) : (s.pushSyms ws).result = s.result := rfl
@[simp] theorem State.pushSyms_faultRace (ws : List SymWord) : (s.pushSyms ws).faultRace = s.faultRace := rfl
@[simp] theorem State.pushSyms_faultDangling (ws : List SymWord) : (s.pushSyms ws).faultDangling = s.faultDangling := rfl
@[simp] theorem State.pushSyms_faultRefused (ws : List SymWord) : (s.pushSyms ws).faultRefused = s.faultRefused := rfl
@[simp] theorem State.pushSyms_cfg (ws : List SymWord) : (s.pushSyms ws).cfg = s.cfg := rfl
@[simp] theorem State.pushSyms_devState (ws : List SymWord) : (s.pushSyms ws).devState = s.devState := rfl
@[simp] theorem State.pushSyms_dev (ws : List SymWord) : (s.pushSyms ws).dev = { s.dev with memblk := s.dev.memblk ++ ws } := rfl
@[simp] theorem State.pushSyms_mem (ws : List SymWord) : (s.pushSyms ws).mem = s.mem := rfl
@[simp] theorem State.pushSyms_wire (ws : List SymWord) : (s.pushSyms ws).wire = s.wire := rfl
@[simp] theorem State.pushSyms_pinMarks (ws : List SymWord) : (s.pushSyms ws).pinMarks = s.pinMarks := rfl
@[simp] theorem State.pushSyms_reads (ws : List SymWord) : (s.pushSyms ws).reads = s.reads := rfl
@[simp] theorem State.pushSyms_inputs (ws : List SymWord) : (s.pushSyms ws).inputs = s.inputs := rfl
@[simp] theorem State.pushSyms_drawCount (ws : List SymWord) : (s.pushSyms ws).drawCount = s.drawCount := rfl

/-! ## emit -/

@[simp] theorem State.emit_platform (e : WireEvent) : (s.emit e).platform = s.platform := rfl
@[simp] theorem State.emit_program (e : WireEvent) : (s.emit e).program = s.program := rfl
@[simp] theorem State.emit_hostPos (e : WireEvent) : (s.emit e).hostPos = s.hostPos := rfl
@[simp] theorem State.emit_hostSub (e : WireEvent) : (s.emit e).hostSub = s.hostSub := rfl
@[simp] theorem State.emit_hostHeld (e : WireEvent) : (s.emit e).hostHeld = s.hostHeld := rfl
@[simp] theorem State.emit_result (e : WireEvent) : (s.emit e).result = s.result := rfl
@[simp] theorem State.emit_faultRace (e : WireEvent) : (s.emit e).faultRace = s.faultRace := rfl
@[simp] theorem State.emit_faultDangling (e : WireEvent) : (s.emit e).faultDangling = s.faultDangling := rfl
@[simp] theorem State.emit_faultRefused (e : WireEvent) : (s.emit e).faultRefused = s.faultRefused := rfl
@[simp] theorem State.emit_cfg (e : WireEvent) : (s.emit e).cfg = s.cfg := rfl
@[simp] theorem State.emit_devState (e : WireEvent) : (s.emit e).devState = s.devState := rfl
@[simp] theorem State.emit_dev (e : WireEvent) : (s.emit e).dev = s.dev := rfl
@[simp] theorem State.emit_mem (e : WireEvent) : (s.emit e).mem = s.mem := rfl
@[simp] theorem State.emit_wire (e : WireEvent) : (s.emit e).wire = s.wire ++ [e] := rfl
@[simp] theorem State.emit_pinMarks (e : WireEvent) : (s.emit e).pinMarks = s.pinMarks := rfl
@[simp] theorem State.emit_reads (e : WireEvent) : (s.emit e).reads = s.reads := rfl
@[simp] theorem State.emit_inputs (e : WireEvent) : (s.emit e).inputs = s.inputs := rfl
@[simp] theorem State.emit_drawCount (e : WireEvent) : (s.emit e).drawCount = s.drawCount := rfl

/-! ## markPin -/

@[simp] theorem State.markPin_platform : s.markPin.platform = s.platform := rfl
@[simp] theorem State.markPin_program : s.markPin.program = s.program := rfl
@[simp] theorem State.markPin_hostPos : s.markPin.hostPos = s.hostPos := rfl
@[simp] theorem State.markPin_hostSub : s.markPin.hostSub = s.hostSub := rfl
@[simp] theorem State.markPin_hostHeld : s.markPin.hostHeld = s.hostHeld := rfl
@[simp] theorem State.markPin_result : s.markPin.result = s.result := rfl
@[simp] theorem State.markPin_faultRace : s.markPin.faultRace = s.faultRace := rfl
@[simp] theorem State.markPin_faultDangling : s.markPin.faultDangling = s.faultDangling := rfl
@[simp] theorem State.markPin_faultRefused : s.markPin.faultRefused = s.faultRefused := rfl
@[simp] theorem State.markPin_cfg : s.markPin.cfg = s.cfg := rfl
@[simp] theorem State.markPin_devState : s.markPin.devState = s.devState := rfl
@[simp] theorem State.markPin_dev : s.markPin.dev = s.dev := rfl
@[simp] theorem State.markPin_mem : s.markPin.mem = s.mem := rfl
@[simp] theorem State.markPin_wire : s.markPin.wire = s.wire := rfl
@[simp] theorem State.markPin_pinMarks : s.markPin.pinMarks = s.pinMarks ++ [⟨s.wire.length, s.pinDrive⟩] := rfl
@[simp] theorem State.markPin_reads : s.markPin.reads = s.reads := rfl
@[simp] theorem State.markPin_inputs : s.markPin.inputs = s.inputs := rfl
@[simp] theorem State.markPin_drawCount : s.markPin.drawCount = s.drawCount := rfl

/-! ## setHeld -/

@[simp] theorem State.setHeld_platform (b : Bool) : (s.setHeld b).platform = s.platform := rfl
@[simp] theorem State.setHeld_program (b : Bool) : (s.setHeld b).program = s.program := rfl
@[simp] theorem State.setHeld_hostPos (b : Bool) : (s.setHeld b).hostPos = s.hostPos := rfl
@[simp] theorem State.setHeld_hostSub (b : Bool) : (s.setHeld b).hostSub = s.hostSub := rfl
@[simp] theorem State.setHeld_hostHeld (b : Bool) : (s.setHeld b).hostHeld = b := rfl
@[simp] theorem State.setHeld_result (b : Bool) : (s.setHeld b).result = s.result := rfl
@[simp] theorem State.setHeld_faultRace (b : Bool) : (s.setHeld b).faultRace = s.faultRace := rfl
@[simp] theorem State.setHeld_faultDangling (b : Bool) : (s.setHeld b).faultDangling = s.faultDangling := rfl
@[simp] theorem State.setHeld_faultRefused (b : Bool) : (s.setHeld b).faultRefused = s.faultRefused := rfl
@[simp] theorem State.setHeld_cfg (b : Bool) : (s.setHeld b).cfg = s.cfg := rfl
@[simp] theorem State.setHeld_devState (b : Bool) : (s.setHeld b).devState = s.devState := rfl
@[simp] theorem State.setHeld_dev (b : Bool) : (s.setHeld b).dev = s.dev := rfl
@[simp] theorem State.setHeld_mem (b : Bool) : (s.setHeld b).mem = s.mem := rfl
@[simp] theorem State.setHeld_wire (b : Bool) : (s.setHeld b).wire = s.wire := rfl
@[simp] theorem State.setHeld_pinMarks (b : Bool) : (s.setHeld b).pinMarks = s.pinMarks := rfl
@[simp] theorem State.setHeld_reads (b : Bool) : (s.setHeld b).reads = s.reads := rfl
@[simp] theorem State.setHeld_inputs (b : Bool) : (s.setHeld b).inputs = s.inputs := rfl
@[simp] theorem State.setHeld_drawCount (b : Bool) : (s.setHeld b).drawCount = s.drawCount := rfl

/-! ## setSub -/

@[simp] theorem State.setSub_platform (n : HostSub) : (s.setSub n).platform = s.platform := rfl
@[simp] theorem State.setSub_program (n : HostSub) : (s.setSub n).program = s.program := rfl
@[simp] theorem State.setSub_hostPos (n : HostSub) : (s.setSub n).hostPos = s.hostPos := rfl
@[simp] theorem State.setSub_hostSub (n : HostSub) : (s.setSub n).hostSub = n := rfl
@[simp] theorem State.setSub_hostHeld (n : HostSub) : (s.setSub n).hostHeld = s.hostHeld := rfl
@[simp] theorem State.setSub_result (n : HostSub) : (s.setSub n).result = s.result := rfl
@[simp] theorem State.setSub_faultRace (n : HostSub) : (s.setSub n).faultRace = s.faultRace := rfl
@[simp] theorem State.setSub_faultDangling (n : HostSub) : (s.setSub n).faultDangling = s.faultDangling := rfl
@[simp] theorem State.setSub_faultRefused (n : HostSub) : (s.setSub n).faultRefused = s.faultRefused := rfl
@[simp] theorem State.setSub_cfg (n : HostSub) : (s.setSub n).cfg = s.cfg := rfl
@[simp] theorem State.setSub_devState (n : HostSub) : (s.setSub n).devState = s.devState := rfl
@[simp] theorem State.setSub_dev (n : HostSub) : (s.setSub n).dev = s.dev := rfl
@[simp] theorem State.setSub_mem (n : HostSub) : (s.setSub n).mem = s.mem := rfl
@[simp] theorem State.setSub_wire (n : HostSub) : (s.setSub n).wire = s.wire := rfl
@[simp] theorem State.setSub_pinMarks (n : HostSub) : (s.setSub n).pinMarks = s.pinMarks := rfl
@[simp] theorem State.setSub_reads (n : HostSub) : (s.setSub n).reads = s.reads := rfl
@[simp] theorem State.setSub_inputs (n : HostSub) : (s.setSub n).inputs = s.inputs := rfl
@[simp] theorem State.setSub_drawCount (n : HostSub) : (s.setSub n).drawCount = s.drawCount := rfl

/-! ## noteRace -/

@[simp] theorem State.noteRace_platform : s.noteRace.platform = s.platform := rfl
@[simp] theorem State.noteRace_program : s.noteRace.program = s.program := rfl
@[simp] theorem State.noteRace_hostPos : s.noteRace.hostPos = s.hostPos := rfl
@[simp] theorem State.noteRace_hostSub : s.noteRace.hostSub = s.hostSub := rfl
@[simp] theorem State.noteRace_hostHeld : s.noteRace.hostHeld = s.hostHeld := rfl
@[simp] theorem State.noteRace_result : s.noteRace.result = s.result := rfl
@[simp] theorem State.noteRace_faultRace : s.noteRace.faultRace = (s.faultRace || s.dev.chState == ChState.transmitting) := rfl
@[simp] theorem State.noteRace_faultDangling : s.noteRace.faultDangling = s.faultDangling := rfl
@[simp] theorem State.noteRace_faultRefused : s.noteRace.faultRefused = s.faultRefused := rfl
@[simp] theorem State.noteRace_cfg : s.noteRace.cfg = s.cfg := rfl
@[simp] theorem State.noteRace_devState : s.noteRace.devState = s.devState := rfl
@[simp] theorem State.noteRace_dev : s.noteRace.dev = s.dev := rfl
@[simp] theorem State.noteRace_mem : s.noteRace.mem = s.mem := rfl
@[simp] theorem State.noteRace_wire : s.noteRace.wire = s.wire := rfl
@[simp] theorem State.noteRace_pinMarks : s.noteRace.pinMarks = s.pinMarks := rfl
@[simp] theorem State.noteRace_reads : s.noteRace.reads = s.reads := rfl
@[simp] theorem State.noteRace_inputs : s.noteRace.inputs = s.inputs := rfl
@[simp] theorem State.noteRace_drawCount : s.noteRace.drawCount = s.drawCount := rfl

/-! ## writePixels -/

@[simp] theorem State.writePixels_platform (a : Nat) (vs : List Byte) : (s.writePixels a vs).platform = s.platform := rfl
@[simp] theorem State.writePixels_program (a : Nat) (vs : List Byte) : (s.writePixels a vs).program = s.program := rfl
@[simp] theorem State.writePixels_hostPos (a : Nat) (vs : List Byte) : (s.writePixels a vs).hostPos = s.hostPos := rfl
@[simp] theorem State.writePixels_hostSub (a : Nat) (vs : List Byte) : (s.writePixels a vs).hostSub = s.hostSub := rfl
@[simp] theorem State.writePixels_hostHeld (a : Nat) (vs : List Byte) : (s.writePixels a vs).hostHeld = s.hostHeld := rfl
@[simp] theorem State.writePixels_result (a : Nat) (vs : List Byte) : (s.writePixels a vs).result = s.result := rfl
@[simp] theorem State.writePixels_faultRace (a : Nat) (vs : List Byte) : (s.writePixels a vs).faultRace = s.faultRace := rfl
@[simp] theorem State.writePixels_faultDangling (a : Nat) (vs : List Byte) : (s.writePixels a vs).faultDangling = s.faultDangling := rfl
@[simp] theorem State.writePixels_faultRefused (a : Nat) (vs : List Byte) : (s.writePixels a vs).faultRefused = s.faultRefused := rfl
@[simp] theorem State.writePixels_cfg (a : Nat) (vs : List Byte) : (s.writePixels a vs).cfg = s.cfg := rfl
@[simp] theorem State.writePixels_devState (a : Nat) (vs : List Byte) : (s.writePixels a vs).devState = s.devState := rfl
@[simp] theorem State.writePixels_dev (a : Nat) (vs : List Byte) : (s.writePixels a vs).dev = s.dev := rfl
@[simp] theorem State.writePixels_mem (a : Nat) (vs : List Byte) : (s.writePixels a vs).mem = Memory.writeBytes s.mem a vs := rfl
@[simp] theorem State.writePixels_wire (a : Nat) (vs : List Byte) : (s.writePixels a vs).wire = s.wire := rfl
@[simp] theorem State.writePixels_pinMarks (a : Nat) (vs : List Byte) : (s.writePixels a vs).pinMarks = s.pinMarks := rfl
@[simp] theorem State.writePixels_reads (a : Nat) (vs : List Byte) : (s.writePixels a vs).reads = s.reads := rfl
@[simp] theorem State.writePixels_inputs (a : Nat) (vs : List Byte) : (s.writePixels a vs).inputs = s.inputs := rfl
@[simp] theorem State.writePixels_drawCount (a : Nat) (vs : List Byte) : (s.writePixels a vs).drawCount = s.drawCount := rfl

/-! ## logRead -/

@[simp] theorem State.logRead_platform (v : Word) : (s.logRead v).platform = s.platform := rfl
@[simp] theorem State.logRead_program (v : Word) : (s.logRead v).program = s.program := rfl
@[simp] theorem State.logRead_hostPos (v : Word) : (s.logRead v).hostPos = s.hostPos := rfl
@[simp] theorem State.logRead_hostSub (v : Word) : (s.logRead v).hostSub = s.hostSub := rfl
@[simp] theorem State.logRead_hostHeld (v : Word) : (s.logRead v).hostHeld = s.hostHeld := rfl
@[simp] theorem State.logRead_result (v : Word) : (s.logRead v).result = s.result := rfl
@[simp] theorem State.logRead_faultRace (v : Word) : (s.logRead v).faultRace = s.faultRace := rfl
@[simp] theorem State.logRead_faultDangling (v : Word) : (s.logRead v).faultDangling = s.faultDangling := rfl
@[simp] theorem State.logRead_faultRefused (v : Word) : (s.logRead v).faultRefused = s.faultRefused := rfl
@[simp] theorem State.logRead_cfg (v : Word) : (s.logRead v).cfg = s.cfg := rfl
@[simp] theorem State.logRead_devState (v : Word) : (s.logRead v).devState = s.devState := rfl
@[simp] theorem State.logRead_dev (v : Word) : (s.logRead v).dev = s.dev := rfl
@[simp] theorem State.logRead_mem (v : Word) : (s.logRead v).mem = s.mem := rfl
@[simp] theorem State.logRead_wire (v : Word) : (s.logRead v).wire = s.wire := rfl
@[simp] theorem State.logRead_pinMarks (v : Word) : (s.logRead v).pinMarks = s.pinMarks := rfl
@[simp] theorem State.logRead_reads (v : Word) : (s.logRead v).reads = s.reads ++ [v] := rfl
@[simp] theorem State.logRead_inputs (v : Word) : (s.logRead v).inputs = s.inputs := rfl
@[simp] theorem State.logRead_drawCount (v : Word) : (s.logRead v).drawCount = s.drawCount := rfl

/-! ## setCfg -/

@[simp] theorem State.setCfg_platform (c : CfgRegs) : (s.setCfg c).platform = s.platform := rfl
@[simp] theorem State.setCfg_program (c : CfgRegs) : (s.setCfg c).program = s.program := rfl
@[simp] theorem State.setCfg_hostPos (c : CfgRegs) : (s.setCfg c).hostPos = s.hostPos := rfl
@[simp] theorem State.setCfg_hostSub (c : CfgRegs) : (s.setCfg c).hostSub = s.hostSub := rfl
@[simp] theorem State.setCfg_hostHeld (c : CfgRegs) : (s.setCfg c).hostHeld = s.hostHeld := rfl
@[simp] theorem State.setCfg_result (c : CfgRegs) : (s.setCfg c).result = s.result := rfl
@[simp] theorem State.setCfg_faultRace (c : CfgRegs) : (s.setCfg c).faultRace = s.faultRace := rfl
@[simp] theorem State.setCfg_faultDangling (c : CfgRegs) : (s.setCfg c).faultDangling = s.faultDangling := rfl
@[simp] theorem State.setCfg_faultRefused (c : CfgRegs) : (s.setCfg c).faultRefused = s.faultRefused := rfl
@[simp] theorem State.setCfg_cfg (c : CfgRegs) : (s.setCfg c).cfg = c := rfl
@[simp] theorem State.setCfg_devState (c : CfgRegs) : (s.setCfg c).devState = s.devState := rfl
@[simp] theorem State.setCfg_dev (c : CfgRegs) : (s.setCfg c).dev = s.dev := rfl
@[simp] theorem State.setCfg_mem (c : CfgRegs) : (s.setCfg c).mem = s.mem := rfl
@[simp] theorem State.setCfg_wire (c : CfgRegs) : (s.setCfg c).wire = s.wire := rfl
@[simp] theorem State.setCfg_pinMarks (c : CfgRegs) : (s.setCfg c).pinMarks = s.pinMarks := rfl
@[simp] theorem State.setCfg_reads (c : CfgRegs) : (s.setCfg c).reads = s.reads := rfl
@[simp] theorem State.setCfg_inputs (c : CfgRegs) : (s.setCfg c).inputs = s.inputs := rfl
@[simp] theorem State.setCfg_drawCount (c : CfgRegs) : (s.setCfg c).drawCount = s.drawCount := rfl

/-! ## releaseDevice -/

@[simp] theorem State.releaseDevice_platform : s.releaseDevice.platform = s.platform := rfl
@[simp] theorem State.releaseDevice_program : s.releaseDevice.program = s.program := rfl
@[simp] theorem State.releaseDevice_hostPos : s.releaseDevice.hostPos = s.hostPos := rfl
@[simp] theorem State.releaseDevice_hostSub : s.releaseDevice.hostSub = s.hostSub := rfl
@[simp] theorem State.releaseDevice_hostHeld : s.releaseDevice.hostHeld = s.hostHeld := rfl
@[simp] theorem State.releaseDevice_result : s.releaseDevice.result = s.result := rfl
@[simp] theorem State.releaseDevice_faultRace : s.releaseDevice.faultRace = s.faultRace := rfl
@[simp] theorem State.releaseDevice_faultDangling : s.releaseDevice.faultDangling = s.faultDangling := rfl
@[simp] theorem State.releaseDevice_faultRefused : s.releaseDevice.faultRefused = s.faultRefused := rfl
@[simp] theorem State.releaseDevice_cfg : s.releaseDevice.cfg = s.cfg := rfl
@[simp] theorem State.releaseDevice_devState : s.releaseDevice.devState = DevState.destroyed := rfl
@[simp] theorem State.releaseDevice_dev : s.releaseDevice.dev = Device.absent := rfl
@[simp] theorem State.releaseDevice_mem : s.releaseDevice.mem = [] := rfl
@[simp] theorem State.releaseDevice_wire : s.releaseDevice.wire = s.wire := rfl
@[simp] theorem State.releaseDevice_pinMarks :
    s.releaseDevice.pinMarks = s.pinMarks ++ [⟨s.wire.length, none⟩] := rfl
@[simp] theorem State.releaseDevice_reads : s.releaseDevice.reads = s.reads := rfl
@[simp] theorem State.releaseDevice_inputs : s.releaseDevice.inputs = s.inputs := rfl
@[simp] theorem State.releaseDevice_drawCount : s.releaseDevice.drawCount = s.drawCount := rfl

/-! ## Draws -/

@[simp] theorem State.draw_platform : s.draw.2.platform = s.platform := by unfold State.draw; split <;> rfl
@[simp] theorem State.draw_program : s.draw.2.program = s.program := by unfold State.draw; split <;> rfl
@[simp] theorem State.draw_hostPos : s.draw.2.hostPos = s.hostPos := by unfold State.draw; split <;> rfl
@[simp] theorem State.draw_hostSub : s.draw.2.hostSub = s.hostSub := by unfold State.draw; split <;> rfl
@[simp] theorem State.draw_hostHeld : s.draw.2.hostHeld = s.hostHeld := by unfold State.draw; split <;> rfl
@[simp] theorem State.draw_result : s.draw.2.result = s.result := by unfold State.draw; split <;> rfl
@[simp] theorem State.draw_faultRace : s.draw.2.faultRace = s.faultRace := by unfold State.draw; split <;> rfl
@[simp] theorem State.draw_faultDangling : s.draw.2.faultDangling = s.faultDangling := by unfold State.draw; split <;> rfl
@[simp] theorem State.draw_faultRefused : s.draw.2.faultRefused = s.faultRefused := by unfold State.draw; split <;> rfl
@[simp] theorem State.draw_cfg : s.draw.2.cfg = s.cfg := by unfold State.draw; split <;> rfl
@[simp] theorem State.draw_devState : s.draw.2.devState = s.devState := by unfold State.draw; split <;> rfl
@[simp] theorem State.draw_dev : s.draw.2.dev = s.dev := by unfold State.draw; split <;> rfl
@[simp] theorem State.draw_mem : s.draw.2.mem = s.mem := by unfold State.draw; split <;> rfl
@[simp] theorem State.draw_wire : s.draw.2.wire = s.wire := by unfold State.draw; split <;> rfl
@[simp] theorem State.draw_pinMarks : s.draw.2.pinMarks = s.pinMarks := by unfold State.draw; split <;> rfl
@[simp] theorem State.draw_reads : s.draw.2.reads = s.reads := by unfold State.draw; split <;> rfl
@[simp] theorem State.drawBool_platform : s.drawBool.2.platform = s.platform := s.draw_platform
@[simp] theorem State.drawBool_program : s.drawBool.2.program = s.program := s.draw_program
@[simp] theorem State.drawBool_hostPos : s.drawBool.2.hostPos = s.hostPos := s.draw_hostPos
@[simp] theorem State.drawBool_hostSub : s.drawBool.2.hostSub = s.hostSub := s.draw_hostSub
@[simp] theorem State.drawBool_hostHeld : s.drawBool.2.hostHeld = s.hostHeld := s.draw_hostHeld
@[simp] theorem State.drawBool_result : s.drawBool.2.result = s.result := s.draw_result
@[simp] theorem State.drawBool_faultRace : s.drawBool.2.faultRace = s.faultRace := s.draw_faultRace
@[simp] theorem State.drawBool_faultDangling : s.drawBool.2.faultDangling = s.faultDangling := s.draw_faultDangling
@[simp] theorem State.drawBool_faultRefused : s.drawBool.2.faultRefused = s.faultRefused := s.draw_faultRefused
@[simp] theorem State.drawBool_cfg : s.drawBool.2.cfg = s.cfg := s.draw_cfg
@[simp] theorem State.drawBool_devState : s.drawBool.2.devState = s.devState := s.draw_devState
@[simp] theorem State.drawBool_dev : s.drawBool.2.dev = s.dev := s.draw_dev
@[simp] theorem State.drawBool_mem : s.drawBool.2.mem = s.mem := s.draw_mem
@[simp] theorem State.drawBool_wire : s.drawBool.2.wire = s.wire := s.draw_wire
@[simp] theorem State.drawBool_pinMarks : s.drawBool.2.pinMarks = s.pinMarks := s.draw_pinMarks
@[simp] theorem State.drawBool_reads : s.drawBool.2.reads = s.reads := s.draw_reads
@[simp] theorem State.drawBudget_platform (k : Nat) : (s.drawBudget k).2.platform = s.platform := s.draw_platform
@[simp] theorem State.drawBudget_program (k : Nat) : (s.drawBudget k).2.program = s.program := s.draw_program
@[simp] theorem State.drawBudget_hostPos (k : Nat) : (s.drawBudget k).2.hostPos = s.hostPos := s.draw_hostPos
@[simp] theorem State.drawBudget_hostSub (k : Nat) : (s.drawBudget k).2.hostSub = s.hostSub := s.draw_hostSub
@[simp] theorem State.drawBudget_hostHeld (k : Nat) : (s.drawBudget k).2.hostHeld = s.hostHeld := s.draw_hostHeld
@[simp] theorem State.drawBudget_result (k : Nat) : (s.drawBudget k).2.result = s.result := s.draw_result
@[simp] theorem State.drawBudget_faultRace (k : Nat) : (s.drawBudget k).2.faultRace = s.faultRace := s.draw_faultRace
@[simp] theorem State.drawBudget_faultDangling (k : Nat) : (s.drawBudget k).2.faultDangling = s.faultDangling := s.draw_faultDangling
@[simp] theorem State.drawBudget_faultRefused (k : Nat) : (s.drawBudget k).2.faultRefused = s.faultRefused := s.draw_faultRefused
@[simp] theorem State.drawBudget_cfg (k : Nat) : (s.drawBudget k).2.cfg = s.cfg := s.draw_cfg
@[simp] theorem State.drawBudget_devState (k : Nat) : (s.drawBudget k).2.devState = s.devState := s.draw_devState
@[simp] theorem State.drawBudget_dev (k : Nat) : (s.drawBudget k).2.dev = s.dev := s.draw_dev
@[simp] theorem State.drawBudget_mem (k : Nat) : (s.drawBudget k).2.mem = s.mem := s.draw_mem
@[simp] theorem State.drawBudget_wire (k : Nat) : (s.drawBudget k).2.wire = s.wire := s.draw_wire
@[simp] theorem State.drawBudget_pinMarks (k : Nat) : (s.drawBudget k).2.pinMarks = s.pinMarks := s.draw_pinMarks
@[simp] theorem State.drawBudget_reads (k : Nat) : (s.drawBudget k).2.reads = s.reads := s.draw_reads

/-- Drawing bytes changes the draws to come and nothing else. -/
theorem State.drawBytes_frame (n : Nat) (s : State) : ∃ i d, (s.drawBytes n).2 = { s with inputs := i, drawCount := d } := by
  induction n generalizing s with
  | zero => exact ⟨s.inputs, s.drawCount, rfl⟩
  | succ n ih =>
    obtain ⟨i, d, h⟩ := ih s.draw.2
    refine ⟨i, d, ?_⟩
    show (State.drawBytes n s.draw.2).2 = _
    rw [h]
    unfold State.draw
    split <;> rfl

/-- The drawn bytes are as many as asked for. -/
@[simp] theorem State.drawBytes_length (n : Nat) (s : State) : (s.drawBytes n).1.length = n := by
  induction n generalizing s with
  | zero => rfl
  | succ n ih => simp [State.drawBytes, ih]

@[simp] theorem State.drawBytes_platform (n : Nat) : (s.drawBytes n).2.platform = s.platform := by
  obtain ⟨i, d, h⟩ := s.drawBytes_frame n; rw [h]
@[simp] theorem State.drawBytes_program (n : Nat) : (s.drawBytes n).2.program = s.program := by
  obtain ⟨i, d, h⟩ := s.drawBytes_frame n; rw [h]
@[simp] theorem State.drawBytes_hostPos (n : Nat) : (s.drawBytes n).2.hostPos = s.hostPos := by
  obtain ⟨i, d, h⟩ := s.drawBytes_frame n; rw [h]
@[simp] theorem State.drawBytes_hostSub (n : Nat) : (s.drawBytes n).2.hostSub = s.hostSub := by
  obtain ⟨i, d, h⟩ := s.drawBytes_frame n; rw [h]
@[simp] theorem State.drawBytes_hostHeld (n : Nat) : (s.drawBytes n).2.hostHeld = s.hostHeld := by
  obtain ⟨i, d, h⟩ := s.drawBytes_frame n; rw [h]
@[simp] theorem State.drawBytes_result (n : Nat) : (s.drawBytes n).2.result = s.result := by
  obtain ⟨i, d, h⟩ := s.drawBytes_frame n; rw [h]
@[simp] theorem State.drawBytes_faultRace (n : Nat) : (s.drawBytes n).2.faultRace = s.faultRace := by
  obtain ⟨i, d, h⟩ := s.drawBytes_frame n; rw [h]
@[simp] theorem State.drawBytes_faultDangling (n : Nat) : (s.drawBytes n).2.faultDangling = s.faultDangling := by
  obtain ⟨i, d, h⟩ := s.drawBytes_frame n; rw [h]
@[simp] theorem State.drawBytes_faultRefused (n : Nat) : (s.drawBytes n).2.faultRefused = s.faultRefused := by
  obtain ⟨i, d, h⟩ := s.drawBytes_frame n; rw [h]
@[simp] theorem State.drawBytes_cfg (n : Nat) : (s.drawBytes n).2.cfg = s.cfg := by
  obtain ⟨i, d, h⟩ := s.drawBytes_frame n; rw [h]
@[simp] theorem State.drawBytes_devState (n : Nat) : (s.drawBytes n).2.devState = s.devState := by
  obtain ⟨i, d, h⟩ := s.drawBytes_frame n; rw [h]
@[simp] theorem State.drawBytes_dev (n : Nat) : (s.drawBytes n).2.dev = s.dev := by
  obtain ⟨i, d, h⟩ := s.drawBytes_frame n; rw [h]
@[simp] theorem State.drawBytes_mem (n : Nat) : (s.drawBytes n).2.mem = s.mem := by
  obtain ⟨i, d, h⟩ := s.drawBytes_frame n; rw [h]
@[simp] theorem State.drawBytes_wire (n : Nat) : (s.drawBytes n).2.wire = s.wire := by
  obtain ⟨i, d, h⟩ := s.drawBytes_frame n; rw [h]
@[simp] theorem State.drawBytes_pinMarks (n : Nat) : (s.drawBytes n).2.pinMarks = s.pinMarks := by
  obtain ⟨i, d, h⟩ := s.drawBytes_frame n; rw [h]
@[simp] theorem State.drawBytes_reads (n : Nat) : (s.drawBytes n).2.reads = s.reads := by
  obtain ⟨i, d, h⟩ := s.drawBytes_frame n; rw [h]
@[simp] theorem State.driverFails_platform : s.driverFails.2.platform = s.platform := by unfold State.driverFails; split <;> simp
@[simp] theorem State.driverFails_program : s.driverFails.2.program = s.program := by unfold State.driverFails; split <;> simp
@[simp] theorem State.driverFails_hostPos : s.driverFails.2.hostPos = s.hostPos := by unfold State.driverFails; split <;> simp
@[simp] theorem State.driverFails_hostSub : s.driverFails.2.hostSub = s.hostSub := by unfold State.driverFails; split <;> simp
@[simp] theorem State.driverFails_hostHeld : s.driverFails.2.hostHeld = s.hostHeld := by unfold State.driverFails; split <;> simp
@[simp] theorem State.driverFails_result : s.driverFails.2.result = s.result := by unfold State.driverFails; split <;> simp
@[simp] theorem State.driverFails_faultRace : s.driverFails.2.faultRace = s.faultRace := by unfold State.driverFails; split <;> simp
@[simp] theorem State.driverFails_faultDangling : s.driverFails.2.faultDangling = s.faultDangling := by unfold State.driverFails; split <;> simp
@[simp] theorem State.driverFails_faultRefused : s.driverFails.2.faultRefused = s.faultRefused := by unfold State.driverFails; split <;> simp
@[simp] theorem State.driverFails_cfg : s.driverFails.2.cfg = s.cfg := by unfold State.driverFails; split <;> simp
@[simp] theorem State.driverFails_devState : s.driverFails.2.devState = s.devState := by unfold State.driverFails; split <;> simp
@[simp] theorem State.driverFails_dev : s.driverFails.2.dev = s.dev := by unfold State.driverFails; split <;> simp
@[simp] theorem State.driverFails_mem : s.driverFails.2.mem = s.mem := by unfold State.driverFails; split <;> simp
@[simp] theorem State.driverFails_wire : s.driverFails.2.wire = s.wire := by unfold State.driverFails; split <;> simp
@[simp] theorem State.driverFails_pinMarks : s.driverFails.2.pinMarks = s.pinMarks := by unfold State.driverFails; split <;> simp
@[simp] theorem State.driverFails_reads : s.driverFails.2.reads = s.reads := by unfold State.driverFails; split <;> simp
@[simp] theorem State.allocFails_platform : s.allocFails.2.platform = s.platform := by unfold State.allocFails; split <;> simp
@[simp] theorem State.allocFails_program : s.allocFails.2.program = s.program := by unfold State.allocFails; split <;> simp
@[simp] theorem State.allocFails_hostPos : s.allocFails.2.hostPos = s.hostPos := by unfold State.allocFails; split <;> simp
@[simp] theorem State.allocFails_hostSub : s.allocFails.2.hostSub = s.hostSub := by unfold State.allocFails; split <;> simp
@[simp] theorem State.allocFails_hostHeld : s.allocFails.2.hostHeld = s.hostHeld := by unfold State.allocFails; split <;> simp
@[simp] theorem State.allocFails_result : s.allocFails.2.result = s.result := by unfold State.allocFails; split <;> simp
@[simp] theorem State.allocFails_faultRace : s.allocFails.2.faultRace = s.faultRace := by unfold State.allocFails; split <;> simp
@[simp] theorem State.allocFails_faultDangling : s.allocFails.2.faultDangling = s.faultDangling := by unfold State.allocFails; split <;> simp
@[simp] theorem State.allocFails_faultRefused : s.allocFails.2.faultRefused = s.faultRefused := by unfold State.allocFails; split <;> simp
@[simp] theorem State.allocFails_cfg : s.allocFails.2.cfg = s.cfg := by unfold State.allocFails; split <;> simp
@[simp] theorem State.allocFails_devState : s.allocFails.2.devState = s.devState := by unfold State.allocFails; split <;> simp
@[simp] theorem State.allocFails_dev : s.allocFails.2.dev = s.dev := by unfold State.allocFails; split <;> simp
@[simp] theorem State.allocFails_mem : s.allocFails.2.mem = s.mem := by unfold State.allocFails; split <;> simp
@[simp] theorem State.allocFails_wire : s.allocFails.2.wire = s.wire := by unfold State.allocFails; split <;> simp
@[simp] theorem State.allocFails_pinMarks : s.allocFails.2.pinMarks = s.pinMarks := by unfold State.allocFails; split <;> simp
@[simp] theorem State.allocFails_reads : s.allocFails.2.reads = s.reads := by unfold State.allocFails; split <;> simp

/-! ## createDevice -/

@[simp] theorem State.createDevice_platform (n p : Half) : (s.createDevice n p).platform = s.platform := s.drawBytes_platform _
@[simp] theorem State.createDevice_program (n p : Half) : (s.createDevice n p).program = s.program := s.drawBytes_program _
@[simp] theorem State.createDevice_hostPos (n p : Half) : (s.createDevice n p).hostPos = s.hostPos := s.drawBytes_hostPos _
@[simp] theorem State.createDevice_hostSub (n p : Half) : (s.createDevice n p).hostSub = s.hostSub := s.drawBytes_hostSub _
@[simp] theorem State.createDevice_hostHeld (n p : Half) : (s.createDevice n p).hostHeld = s.hostHeld := s.drawBytes_hostHeld _
@[simp] theorem State.createDevice_result (n p : Half) : (s.createDevice n p).result = s.result := s.drawBytes_result _
@[simp] theorem State.createDevice_faultRace (n p : Half) : (s.createDevice n p).faultRace = s.faultRace := s.drawBytes_faultRace _
@[simp] theorem State.createDevice_faultDangling (n p : Half) : (s.createDevice n p).faultDangling = s.faultDangling := s.drawBytes_faultDangling _
@[simp] theorem State.createDevice_faultRefused (n p : Half) : (s.createDevice n p).faultRefused = s.faultRefused := s.drawBytes_faultRefused _
@[simp] theorem State.createDevice_cfg (n p : Half) : (s.createDevice n p).cfg = s.cfg := s.drawBytes_cfg _
@[simp] theorem State.createDevice_devState (n p : Half) : (s.createDevice n p).devState = DevState.live := rfl
@[simp] theorem State.createDevice_dev (n p : Half) : (s.createDevice n p).dev = createdDevice n p s.cfg := rfl
@[simp] theorem State.createDevice_mem (n p : Half) : (s.createDevice n p).mem = Memory.writeBytes [] 0 (s.drawBytes (3 * n.toNat)).1 := rfl
@[simp] theorem State.createDevice_wire (n p : Half) : (s.createDevice n p).wire = s.wire := s.drawBytes_wire _
@[simp] theorem createdDevice_pin (n p : Half) (c : CfgRegs) : (createdDevice n p c).pin = p := rfl

@[simp] theorem createdDevice_resolutionHz (n p : Half) (c : CfgRegs) :
    (createdDevice n p c).resolutionHz = effRes c := rfl

/-- The new device inverts as CFG_FLAGS says (10_state.md R38). -/
@[simp] theorem createdDevice_invertOut (n p : Half) (c : CfgRegs) :
    (createdDevice n p c).invertOut = c.flags.getLsbD 1 := by
  simp only [Device.invertOut, createdDevice, devConfigWord, BitVec.getLsbD_append, field, BitVec.getLsbD_extractLsb']
  simp

@[simp] theorem State.createDevice_pinMarks (n p : Half) : (s.createDevice n p).pinMarks =
    s.pinMarks ++ [⟨s.wire.length, some ⟨p, s.cfg.flags.getLsbD 1, effRes s.cfg⟩⟩] := by
  simp [State.createDevice, State.markPin, State.pinDrive]
@[simp] theorem State.createDevice_reads (n p : Half) : (s.createDevice n p).reads = s.reads := s.drawBytes_reads _

/-- A draw of a budget lies in 1 to `k` (00_scope.md R12). -/
theorem State.drawBudget_bounds (k : Nat) (hk : 1 ≤ k) : 1 ≤ (s.drawBudget k).1 ∧ (s.drawBudget k).1 ≤ k := by
  have := Nat.mod_lt s.draw.1 hk
  simp only [State.drawBudget]
  omega

/-- Where the driver cannot fail, the driver draw is not taken (92 D19). -/
theorem State.driverFails_of_sound (h : s.platform.driverMayFail = false) : s.driverFails = (false, s) := by
  simp [State.driverFails, h]

/-- Where allocation cannot fail, the allocation draw is not taken (92 D18). -/
theorem State.allocFails_of_sound (h : s.platform.allocMayFail = false) : s.allocFails = (false, s) := by
  simp [State.allocFails, h]

end Sys2Proof.Machine
end

