-- ==== Sys2Proof/Laws/Ops.lean ====
section
/-! SUPPORT. One lemma per shared operation that says everything it can do; provers cite these instead of unfolding. -/

namespace Sys2Proof.Machine

variable {s t : State}

/-! ## Guards -/

@[simp] theorem withDevice_none (k : CmdResult) (h : s.devState = .none) :
    withDevice s k = .done .invalidArgument s := by simp [withDevice, h]

@[simp] theorem withDevice_destroyed (k : CmdResult) (h : s.devState = .destroyed) : withDevice s k = .dangling s := by
  simp [withDevice, h]

@[simp] theorem withDevice_live (k : CmdResult) (h : s.devState = .live) : withDevice s k = k := by
  simp [withDevice, h]

/-- What the device guard can do. -/
theorem withDevice_cases (s : State) (k : CmdResult) :
    (s.devState = .none ∧ withDevice s k = .done .invalidArgument s) ∨
    (s.devState = .destroyed ∧ withDevice s k = .dangling s) ∨
    (s.devState = .live ∧ withDevice s k = k) := by
  cases h : s.devState <;> simp [h]

/-- What the driver guard can do. -/
theorem withDriver_cases (s : State) (k : State → CmdResult) :
    (s.driverFails.1 = true ∧ withDriver s k = .done .deviceError s.driverFails.2) ∨
    (s.driverFails.1 = false ∧ withDriver s k = k s.driverFails.2) := by
  cases h : s.driverFails.1 <;> simp [withDriver, h]

@[simp] theorem finish_done (c : ResultCode) (s : State) : finish (.done c s) = .next (s.returnCode c) := rfl
@[simp] theorem finish_dangling (s : State) : finish (.dangling s) = .next s.raiseDangling := rfl
@[simp] theorem finish_hold (s : State) : finish (.hold s) = .next s := rfl

@[simp] theorem continueTo_ok (n : HostSub) (s : State) : continueTo n (.done .ok s) = .next (s.setSub n) := rfl
@[simp] theorem continueTo_dangling (n : HostSub) (s : State) : continueTo n (.dangling s) = .next s.raiseDangling := rfl
@[simp] theorem continueTo_hold (n : HostSub) (s : State) : continueTo n (.hold s) = .next s := rfl

/-- A sub-step that does not end in OK ends the command with its code (43_strip_device.md R121). -/
theorem continueTo_error (n : HostSub) (c : ResultCode) (s : State) (h : c ≠ .ok) :
    continueTo n (.done c s) = .next (s.returnCode c) := by cases c <;> first | exact absurd rfl h | rfl

/-- A whole command always has a next state. -/
theorem finish_next (r : CmdResult) : ∃ t, finish r = .next t := by cases r <;> exact ⟨_, rfl⟩

/-- A sub-step always has a next state. -/
theorem continueTo_next (n : HostSub) (r : CmdResult) : ∃ t, continueTo n r = .next t := by
  cases r with
  | done c s => cases c <;> exact ⟨_, rfl⟩
  | dangling s => exact ⟨_, rfl⟩
  | hold s => exact ⟨_, rfl⟩

/-! ## Channel operations -/

/-- Everything ChEnable can do (42_transmit_channel.md R97). -/
theorem chEnable_cases (s : State) :
    (s.devState = .none ∧ chEnable s = .done .invalidArgument s) ∨
    (s.devState = .destroyed ∧ chEnable s = .dangling s) ∨
    (s.devState = .live ∧ s.dev.chState = .deleted ∧ chEnable s = .dangling s) ∨
    (s.devState = .live ∧ (s.dev.chState = .enabled ∨ s.dev.chState = .transmitting) ∧
      chEnable s = .done .deviceError s) ∨
    (s.devState = .live ∧ s.dev.chState = .disabled ∧ s.driverFails.1 = true ∧
      chEnable s = .done .deviceError s.driverFails.2) ∨
    (s.devState = .live ∧ s.dev.chState = .disabled ∧ s.driverFails.1 = false ∧
      chEnable s = .done .ok (s.driverFails.2.setChState .enabled)) := by
  cases h : s.devState <;> cases hc : s.dev.chState <;> cases hd : s.driverFails.1 <;>
    simp [chEnable, withChannel, withDriver, h, hc, hd]

/-- Everything ChTransmit can do (42_transmit_channel.md R98). -/
theorem chTransmit_cases (l : Byte) (s : State) :
    (s.devState = .none ∧ chTransmit l s = .done .invalidArgument s) ∨
    (s.devState = .destroyed ∧ chTransmit l s = .dangling s) ∨
    (s.devState = .live ∧ l ≠ 0#8 ∧ chTransmit l s = .done .invalidArgument s) ∨
    (s.devState = .live ∧ l = 0#8 ∧ s.dev.chState = .deleted ∧ chTransmit l s = .dangling s) ∨
    (s.devState = .live ∧ l = 0#8 ∧ s.dev.chState = .transmitting ∧ chTransmit l s = .done .hardwareBusy s) ∨
    (s.devState = .live ∧ l = 0#8 ∧ s.dev.chState = .disabled ∧ chTransmit l s = .done .deviceError s) ∨
    (s.devState = .live ∧ l = 0#8 ∧ s.dev.chState = .enabled ∧ s.driverFails.1 = true ∧
      chTransmit l s = .done .deviceError s.driverFails.2) ∨
    (s.devState = .live ∧ l = 0#8 ∧ s.dev.chState = .enabled ∧ s.driverFails.1 = false ∧
      chTransmit l s = .done .ok s.driverFails.2.startFrame) := by
  by_cases hl : l = 0#8
  · cases h : s.devState <;> cases hc : s.dev.chState <;> cases hd : s.driverFails.1 <;>
      simp [chTransmit, withChannel, withDriver, h, hc, hd, hl]
  · cases h : s.devState <;> simp [chTransmit, h, hl]

/-- Everything ChWait can do on a host that is not held (42_transmit_channel.md R99). -/
theorem chWait_cases (w : Word) (s : State) (hh : s.hostHeld = false) :
    (s.devState = .none ∧ chWait w s = .done .invalidArgument s) ∨
    (s.devState = .destroyed ∧ chWait w s = .dangling s) ∨
    (s.devState = .live ∧ s.dev.chState = .deleted ∧ chWait w s = .dangling s) ∨
    (s.devState = .live ∧ (s.dev.chState = .disabled ∨ s.dev.chState = .enabled) ∧ chWait w s = .done .ok s) ∨
    (s.devState = .live ∧ s.dev.chState = .transmitting ∧ w = 0#32 ∧ chWait w s = .done .timeout s) ∨
    (s.devState = .live ∧ s.dev.chState = .transmitting ∧ w ≠ 0#32 ∧ chWait w s = .hold (s.setHeld true)) := by
  by_cases hw : w = 0#32 <;> cases h : s.devState <;> cases hc : s.dev.chState <;>
    simp [chWait, withChannel, hh, h, hc, hw]

/-- Everything ChWait can do on a held host: WAKE, EXPIRE, or stay held (42_transmit_channel.md R99). -/
theorem chWait_held_cases (w : Word) (s : State) (hh : s.hostHeld = true) :
    (s.dev.chState ≠ .transmitting ∧ chWait w s = .done .ok (s.setHeld false)) ∨
    (s.dev.chState = .transmitting ∧ w ≠ infiniteTimeout ∧ chWait w s = .done .timeout (s.setHeld false)) ∨
    (s.dev.chState = .transmitting ∧ w = infiniteTimeout ∧ chWait w s = .hold s) := by
  by_cases hc : s.dev.chState = .transmitting <;> by_cases hw : w = infiniteTimeout <;>
    simp [chWait, heldWait, hh, hc, hw]

/-- Everything ChDisable can do (42_transmit_channel.md R100). -/
theorem chDisable_cases (s : State) :
    (s.devState = .none ∧ chDisable s = .done .invalidArgument s) ∨
    (s.devState = .destroyed ∧ chDisable s = .dangling s) ∨
    (s.devState = .live ∧ s.dev.chState = .deleted ∧ chDisable s = .dangling s) ∨
    (s.devState = .live ∧ s.dev.chState = .disabled ∧ chDisable s = .done .deviceError s) ∨
    (s.devState = .live ∧ (s.dev.chState = .enabled ∨ s.dev.chState = .transmitting) ∧ s.driverFails.1 = true ∧
      chDisable s = .done .deviceError s.driverFails.2) ∨
    (s.devState = .live ∧ (s.dev.chState = .enabled ∨ s.dev.chState = .transmitting) ∧ s.driverFails.1 = false ∧
      chDisable s = .done .ok (s.driverFails.2.abortFrame.setChState .disabled)) := by
  cases h : s.devState <;> cases hc : s.dev.chState <;> cases hd : s.driverFails.1 <;>
    simp [chDisable, withChannel, withDriver, h, hc, hd]

/-- Everything ChDelete can do (42_transmit_channel.md R101). -/
theorem chDelete_cases (s : State) :
    (s.devState = .none ∧ chDelete s = .done .invalidArgument s) ∨
    (s.devState = .destroyed ∧ chDelete s = .dangling s) ∨
    (s.devState = .live ∧ s.dev.chState = .deleted ∧ chDelete s = .dangling s) ∨
    (s.devState = .live ∧ (s.dev.chState = .enabled ∨ s.dev.chState = .transmitting) ∧
      chDelete s = .done .deviceError s) ∨
    (s.devState = .live ∧ s.dev.chState = .disabled ∧ s.driverFails.1 = true ∧
      chDelete s = .done .deviceError s.driverFails.2) ∨
    (s.devState = .live ∧ s.dev.chState = .disabled ∧ s.driverFails.1 = false ∧
      chDelete s = .done .ok (s.driverFails.2.setChState .deleted)) := by
  cases h : s.devState <;> cases hc : s.dev.chState <;> cases hd : s.driverFails.1 <;>
    simp [chDelete, withChannel, withDriver, h, hc, hd]

/-- Everything SET_COLOUR's checks and fill can do (43_strip_device.md R119). -/
theorem paintColour_cases (c : Byte) (s : State) :
    (s.devState = .none ∧ paintColour c s = .done .invalidArgument s) ∨
    (s.devState = .destroyed ∧ paintColour c s = .dangling s) ∨
    (s.devState = .live ∧ palette c = none ∧ paintColour c s = .done .invalidArgument s) ∨
    (∃ r g b, s.devState = .live ∧ palette c = some (r, g, b) ∧ paintColour c s = .done .ok (s.fill r g b)) := by
  cases h : s.devState <;> rcases hp : palette c with _ | ⟨r, g, b⟩ <;> simp [paintColour, h, hp]

/-- Everything a refresh sub-step can do but go on: no sub-step of REFRESH refuses or stops the machine. -/
theorem refreshStep_next (s : State) : ∃ t, refreshStep s = .next t := by
  unfold refreshStep
  split <;> first | exact continueTo_next _ _ | exact finish_next _

theorem paintThenRefresh_next (p : CmdResult) (s : State) : ∃ t, paintThenRefresh p s = .next t := by
  unfold paintThenRefresh
  split
  · exact continueTo_next _ _
  · exact refreshStep_next s

/-! ## The commits of CH_TRANSMIT, CH_DISABLE and ENG_DONE, field by field -/

@[simp] theorem State.startFrame_platform : s.startFrame.platform = s.platform := rfl
@[simp] theorem State.startFrame_program : s.startFrame.program = s.program := rfl
@[simp] theorem State.startFrame_hostPos : s.startFrame.hostPos = s.hostPos := rfl
@[simp] theorem State.startFrame_hostSub : s.startFrame.hostSub = s.hostSub := rfl
@[simp] theorem State.startFrame_hostHeld : s.startFrame.hostHeld = s.hostHeld := rfl
@[simp] theorem State.startFrame_result : s.startFrame.result = s.result := rfl
@[simp] theorem State.startFrame_faultRace : s.startFrame.faultRace = s.faultRace := rfl
@[simp] theorem State.startFrame_faultDangling : s.startFrame.faultDangling = s.faultDangling := rfl
@[simp] theorem State.startFrame_faultRefused : s.startFrame.faultRefused = s.faultRefused := rfl
@[simp] theorem State.startFrame_cfg : s.startFrame.cfg = s.cfg := rfl
@[simp] theorem State.startFrame_devState : s.startFrame.devState = s.devState := rfl
@[simp] theorem State.startFrame_dev : s.startFrame.dev = { s.dev with memblk := [], encDone := false, chState := .transmitting } := rfl
@[simp] theorem State.startFrame_mem : s.startFrame.mem = s.mem := rfl
@[simp] theorem State.startFrame_wire : s.startFrame.wire = s.wire ++ [.frameStart] := rfl
@[simp] theorem State.startFrame_pinMarks : s.startFrame.pinMarks = s.pinMarks := rfl
@[simp] theorem State.startFrame_reads : s.startFrame.reads = s.reads := rfl
@[simp] theorem State.startFrame_inputs : s.startFrame.inputs = s.inputs := rfl
@[simp] theorem State.startFrame_drawCount : s.startFrame.drawCount = s.drawCount := rfl

/-- The abort of a transaction in flight (42_transmit_channel.md R100). -/
theorem State.abortFrame_of_transmitting (h : s.dev.chState = .transmitting) :
    s.abortFrame = ((s.setMemblk []).setEncDone false).emit .abort := by simp [State.abortFrame, h]

/-- Without a transaction in flight there is nothing to abort. -/
theorem State.abortFrame_of_idle (h : s.dev.chState ≠ .transmitting) : s.abortFrame = s := by
  simp [State.abortFrame, h]

@[simp] theorem State.abortFrame_platform : s.abortFrame.platform = s.platform := by unfold State.abortFrame; split <;> rfl
@[simp] theorem State.abortFrame_program : s.abortFrame.program = s.program := by unfold State.abortFrame; split <;> rfl
@[simp] theorem State.abortFrame_hostPos : s.abortFrame.hostPos = s.hostPos := by unfold State.abortFrame; split <;> rfl
@[simp] theorem State.abortFrame_hostSub : s.abortFrame.hostSub = s.hostSub := by unfold State.abortFrame; split <;> rfl
@[simp] theorem State.abortFrame_hostHeld : s.abortFrame.hostHeld = s.hostHeld := by unfold State.abortFrame; split <;> rfl
@[simp] theorem State.abortFrame_result : s.abortFrame.result = s.result := by unfold State.abortFrame; split <;> rfl
@[simp] theorem State.abortFrame_faultRace : s.abortFrame.faultRace = s.faultRace := by unfold State.abortFrame; split <;> rfl
@[simp] theorem State.abortFrame_faultDangling : s.abortFrame.faultDangling = s.faultDangling := by unfold State.abortFrame; split <;> rfl
@[simp] theorem State.abortFrame_faultRefused : s.abortFrame.faultRefused = s.faultRefused := by unfold State.abortFrame; split <;> rfl
@[simp] theorem State.abortFrame_cfg : s.abortFrame.cfg = s.cfg := by unfold State.abortFrame; split <;> rfl
@[simp] theorem State.abortFrame_devState : s.abortFrame.devState = s.devState := by unfold State.abortFrame; split <;> rfl
@[simp] theorem State.abortFrame_mem : s.abortFrame.mem = s.mem := by unfold State.abortFrame; split <;> rfl
@[simp] theorem State.abortFrame_reads : s.abortFrame.reads = s.reads := by unfold State.abortFrame; split <;> rfl
@[simp] theorem State.abortFrame_inputs : s.abortFrame.inputs = s.inputs := by unfold State.abortFrame; split <;> rfl
@[simp] theorem State.abortFrame_drawCount : s.abortFrame.drawCount = s.drawCount := by unfold State.abortFrame; split <;> rfl

/-- An abort keeps what CREATE latched and where the encoder stands (41_strip_encoder_fsm.md R93). -/
theorem State.abortFrame_dev :
    s.abortFrame.dev = s.dev ∨ s.abortFrame.dev = { s.dev with memblk := [], encDone := false } := by
  unfold State.abortFrame
  split <;> simp

@[simp] theorem runDone_platform : (runDone s).platform = s.platform := rfl
@[simp] theorem runDone_program : (runDone s).program = s.program := rfl
@[simp] theorem runDone_hostPos : (runDone s).hostPos = s.hostPos := rfl
@[simp] theorem runDone_hostSub : (runDone s).hostSub = s.hostSub := rfl
@[simp] theorem runDone_hostHeld : (runDone s).hostHeld = s.hostHeld := rfl
@[simp] theorem runDone_result : (runDone s).result = s.result := rfl
@[simp] theorem runDone_faultRace : (runDone s).faultRace = s.faultRace := rfl
@[simp] theorem runDone_faultDangling : (runDone s).faultDangling = s.faultDangling := rfl
@[simp] theorem runDone_faultRefused : (runDone s).faultRefused = s.faultRefused := rfl
@[simp] theorem runDone_cfg : (runDone s).cfg = s.cfg := rfl
@[simp] theorem runDone_devState : (runDone s).devState = s.devState := rfl
@[simp] theorem runDone_dev : (runDone s).dev = { s.dev with chState := .enabled, encDone := false } := rfl
@[simp] theorem runDone_mem : (runDone s).mem = s.mem := rfl
@[simp] theorem runDone_wire : (runDone s).wire = s.wire ++ [.frameEnd] := rfl
@[simp] theorem runDone_pinMarks : (runDone s).pinMarks = s.pinMarks := rfl
@[simp] theorem runDone_reads : (runDone s).reads = s.reads := rfl
@[simp] theorem runDone_inputs : (runDone s).inputs = s.inputs := rfl
@[simp] theorem runDone_drawCount : (runDone s).drawCount = s.drawCount := rfl

/-! ## The encoders -/

/-- Everything BytesEncode does (40_symbol_encoder.md R84): the symbols from the cursor on, as many as are left and the
budget allows; the cursor moves past them, to 0 when none is left. -/
theorem bytesEncode_spec (f : Nat) (s : State) :
    (bytesEncode f s).pushed = symsFrom s.dev s.mem s.dev.bytesCursor (min f (s.dev.bitCount - s.dev.bytesCursor)) ∧
    (bytesEncode f s).result = (if s.dev.bitCount ≤ s.dev.bytesCursor + f then EncResult.complete else .memFull) ∧
    (bytesEncode f s).state =
      (s.pushSyms (bytesEncode f s).pushed).setBytesCursor
        (if s.dev.bitCount ≤ s.dev.bytesCursor + f then 0 else s.dev.bytesCursor + f) := by
  unfold bytesEncode
  by_cases h : s.dev.bitCount ≤ s.dev.bytesCursor + f
  · have h' : s.dev.bitCount ≤ s.dev.bytesCursor + min f (s.dev.bitCount - s.dev.bytesCursor) := by omega
    simp [h, h']
  · have h'' : min f (s.dev.bitCount - s.dev.bytesCursor) = f := by omega
    simp only [if_neg h, h'', and_self]

/-- Everything CopyEncode does from a copy cursor of 0 (40_symbol_encoder.md R86). -/
theorem copyEncode_spec (f : Nat) (s : State) (hc : s.dev.copyCursor = 0) :
    copyEncode f s =
      if f = 0 then ⟨[], .memFull, (s.pushSyms []).setCopyCursor 0⟩
      else ⟨[s.dev.symReset], .complete, (s.pushSyms [s.dev.symReset]).setCopyCursor 0⟩ := by
  unfold copyEncode
  by_cases h : f = 0
  · simp [h, hc]
  · have : min f 1 = 1 := by omega
    simp [h, hc, this]

@[simp] theorem symsFrom_length (d : Device) (m : Memory) (c n : Nat) : (symsFrom d m c n).length = n := by
  induction n generalizing c with
  | zero => rfl
  | succ n ih => simp [symsFrom, ih]

/-- Symbols from a cursor on, split at any point (40_symbol_encoder.md R85). -/
theorem symsFrom_add (d : Device) (m : Memory) (c a b : Nat) :
    symsFrom d m c (a + b) = symsFrom d m c a ++ symsFrom d m (c + a) b := by
  induction a generalizing c with
  | zero => simp [symsFrom]
  | succ a ih =>
    rw [show a + 1 + b = a + b + 1 by omega, symsFrom, ih, symsFrom]
    simp [show c + 1 + a = c + (a + 1) by omega]

/-! ## Scheduling -/

/-- Everything the choice of a turn can do: an enabled turn, with the state unchanged or one draw taken. -/
theorem pickTurn_cases {s s' : State} {u : Turn} (h : s.pickTurn = some (u, s')) :
    s.turnEnabled u = true ∧ (s' = s ∨ s' = s.draw.2) := by
  have mem : ∀ v, v ∈ s.enabledTurns → s.turnEnabled v = true := fun v hv => (List.mem_filter.mp hv).2
  unfold State.pickTurn at h
  split at h
  · cases h
  · rename_i v hv
    cases h
    exact ⟨mem _ (by rw [hv]; simp), .inl rfl⟩
  · rename_i a b l hv
    cases h
    refine ⟨mem _ ?_, .inr rfl⟩
    have hlt : s.draw.1 % (l.length + 2) < (a :: b :: l).length := by
      simpa using Nat.mod_lt s.draw.1 (Nat.succ_pos (l.length + 1))
    rw [hv, List.getD_eq_getElem _ _ hlt]
    exact List.getElem_mem hlt

/-- Everything a step that answers a next state can be: one enabled turn of one agent. -/
theorem step_cases {s t : State} (h : step s = .next t) :
    ∃ u s', s.turnEnabled u = true ∧ (s' = s ∨ s' = s.draw.2) ∧ runTurn u s' = .next t := by
  unfold step stepOnce at h
  split at h
  · cases h
  · rename_i u s' hp
    exact ⟨u, s', (pickTurn_cases hp).1, (pickTurn_cases hp).2, h⟩

end Sys2Proof.Machine
end

