-- ==== Sys2Proof/Laws/PerInstr.lean ====
section
/-! SUPPORT. A law for each instruction: its word matches its row of spec/opcode_table.json. -/

namespace Sys2Proof.Laws.TableMatch

/-- The match and mask of an instruction's row in spec/opcode_table.json (30_encoding.md R66). -/
def row : Instr → CmdWord × CmdWord
  | .create _ _ => (0x0000000000000001#64, 0xFFFFFF00000000FF#64)
  | .setPixel _ _ _ _ => (0x0000000000000002#64, 0xFFFF0000000000FF#64)
  | .setAllPixels _ _ _ => (0x0000000000000003#64, 0xFFFF000000FFFFFF#64)
  | .setColour _ => (0x0000000000000004#64, 0xFFFFFFFFFFFF00FF#64)
  | .refresh => (0x0000000000000005#64, 0xFFFFFFFFFFFFFFFF#64)
  | .clear => (0x0000000000000006#64, 0xFFFFFFFFFFFFFFFF#64)
  | .destroy => (0x0000000000000007#64, 0xFFFFFFFFFFFFFFFF#64)
  | .encReset => (0x0000000000000010#64, 0xFFFFFFFFFFFFFFFF#64)
  | .chEnable => (0x0000000000000020#64, 0xFFFFFFFFFFFFFFFF#64)
  | .chTransmit _ => (0x0000000000000021#64, 0xFFFFFFFFFFFF00FF#64)
  | .chWait _ => (0x0000000000000022#64, 0xFFFFFF00000000FF#64)
  | .chDisable => (0x0000000000000023#64, 0xFFFFFFFFFFFFFFFF#64)
  | .chDelete => (0x0000000000000024#64, 0xFFFFFFFFFFFFFFFF#64)
  | .encode _ => (0x0000000000000080#64, 0x00000000000000FF#64)
  | .bytesEncode _ => (0x0000000000000081#64, 0x00000000000000FF#64)
  | .copyEncode _ => (0x0000000000000082#64, 0x00000000000000FF#64)
  | .engChunk => (0x0000000000000083#64, 0x00000000000000FF#64)
  | .engEmit => (0x0000000000000084#64, 0x00000000000000FF#64)
  | .engDone => (0x0000000000000085#64, 0x00000000000000FF#64)

/-- The word of a well-formed instruction has the bits its row fixes. -/
def Statement (i : Instr) : Prop := i.wellFormed = true → Sys2Proof.encode i &&& (row i).2 = (row i).1

theorem create (numLeds pin : Half) : Statement (.create numLeds pin) := by
  intro _
  simp only [Sys2Proof.encode, row]
  simp [or_masked, place_masked]

theorem setPixel (index : Half) (r g b : Byte) : Statement (.setPixel index r g b) := by
  intro _
  simp only [Sys2Proof.encode, row]
  simp [or_masked, place_masked]

theorem setAllPixels (r g b : Byte) : Statement (.setAllPixels r g b) := by
  intro _
  simp only [Sys2Proof.encode, row]
  simp [or_masked, place_masked]

theorem setColour (colour : Byte) : Statement (.setColour colour) := by
  intro _
  simp only [Sys2Proof.encode, row]
  simp [or_masked, place_masked]

theorem refresh : Statement .refresh := by
  intro _
  decide

theorem clear : Statement .clear := by
  intro _
  decide

theorem destroy : Statement .destroy := by
  intro _
  decide

theorem encReset : Statement .encReset := by
  intro _
  decide

theorem chEnable : Statement .chEnable := by
  intro _
  decide

theorem chTransmit (loop : Byte) : Statement (.chTransmit loop) := by
  intro _
  simp only [Sys2Proof.encode, row]
  simp [or_masked, place_masked]

theorem chWait (timeoutMs : Word) : Statement (.chWait timeoutMs) := by
  intro _
  simp only [Sys2Proof.encode, row]
  simp [or_masked, place_masked]

theorem chDisable : Statement .chDisable := by
  intro _
  decide

theorem chDelete : Statement .chDelete := by
  intro _
  decide

theorem encode (f : Nat) : Statement (.encode f) := by
  intro _
  simp only [Sys2Proof.encode, row]
  simp [or_masked, place_masked]

theorem bytesEncode (f : Nat) : Statement (.bytesEncode f) := by
  intro _
  simp only [Sys2Proof.encode, row]
  simp [or_masked, place_masked]

theorem copyEncode (f : Nat) : Statement (.copyEncode f) := by
  intro _
  simp only [Sys2Proof.encode, row]
  simp [or_masked, place_masked]

theorem engChunk : Statement .engChunk := by
  intro _
  decide

theorem engEmit : Statement .engEmit := by
  intro _
  decide

theorem engDone : Statement .engDone := by
  intro _
  decide

end Sys2Proof.Laws.TableMatch
end

