-- ==== Sys2Proof/Laws/Step.lean ====
section
/-! SUPPORT. Everything a host command, a register access, an engine step and a machine step can do, said once; a proof
about all steps goes by cases on these. -/

namespace Sys2Proof.Machine

variable {s t : State}

/-- Everything exec can do with a host command (42_transmit_channel.md R97 to R101, 41_strip_encoder_fsm.md R92,
43_strip_device.md R113 to R122). -/
inductive HostStep (i : Instr) (s : State) : State → Prop
  /-- A result with no other effect. -/
  | result (c : ResultCode) : HostStep i s (s.returnCode c)
  /-- A failing draw. -/
  | driverError : s.devState = .live → HostStep i s (s.driverFails.2.returnCode .deviceError)
  | allocError : s.devState ≠ .live → HostStep i s (s.allocFails.2.returnCode .outOfMemory)
  /-- Fault(DANGLING). -/
  | dangling : HostStep i s s.raiseDangling
  /-- The RGBW refusal. -/
  | refuse : HostStep i s s.refuse
  /-- The wait begins to hold. -/
  | hold (hl : s.devState = .live) (hc : s.dev.chState = .transmitting)
      (hw : s.hostSub = .wait ∨ ∃ w, i = .chWait w) : HostStep i s (s.setHeld true)
  /-- A held host stays held. -/
  | stay (hh : s.hostHeld = true) (hc : s.dev.chState = .transmitting) : HostStep i s s
  /-- WAKE and EXPIRE. -/
  | lift (c : ResultCode) (hh : s.hostHeld = true) : HostStep i s ((s.setHeld false).returnCode c)
  | enable (hl : s.devState = .live) (hc : s.dev.chState = .disabled) :
      HostStep i s ((s.driverFails.2.setChState .enabled).returnCode .ok)
  | transmit (hl : s.devState = .live) (hc : s.dev.chState = .enabled) :
      HostStep i s (s.driverFails.2.startFrame.returnCode .ok)
  | disable (hl : s.devState = .live) (hc : s.dev.chState = .enabled ∨ s.dev.chState = .transmitting) :
      HostStep i s ((s.driverFails.2.abortFrame.setChState .disabled).returnCode .ok)
  | delete (hl : s.devState = .live) (hc : s.dev.chState = .disabled) :
      HostStep i s ((s.driverFails.2.setChState .deleted).returnCode .ok)
  | encReset (hl : s.devState = .live) (hc : s.dev.chState ≠ .transmitting) :
      HostStep i s ((((s.setBytesCursor 0).setCopyCursor 0).setEncState .sendPixels).returnCode .ok)
  /-- SET_PIXEL writes the pixel. -/
  | setPixel (n : Half) (r g b : Byte) (hi : i = .setPixel n r g b) (hl : s.devState = .live)
      (hn : n < s.dev.numLeds) :
      HostStep i s ((s.noteRace.writePixels (3 * n.toNat) (pixelBytes r g b)).returnCode .ok)
  /-- The paint sub-step of a multi-step command. -/
  | paint (vs : List Byte) (hm : multiStep i = true ∧ i ≠ .refresh) (hs : s.hostSub = .start) (hl : s.devState = .live)
      (hv : vs.length = s.dev.bufferLen) : HostStep i s ((s.noteRace.writePixels 0 vs).setSub .enable)
  /-- The sub-steps E, T and W of a multi-step command. -/
  | subEnable (hm : multiStep i = true) (hs : s.hostSub = .start ∨ s.hostSub = .enable) (hl : s.devState = .live)
      (hc : s.dev.chState = .disabled) : HostStep i s ((s.driverFails.2.setChState .enabled).setSub .transmit)
  | subTransmit (hm : multiStep i = true) (hs : s.hostSub = .transmit) (hl : s.devState = .live)
      (hc : s.dev.chState = .enabled) : HostStep i s (s.driverFails.2.startFrame.setSub .wait)
  | subWait (hm : multiStep i = true) (hs : s.hostSub = .wait) (hl : s.hostHeld = true ∨ s.devState = .live)
      (hc : s.dev.chState ≠ .transmitting) : HostStep i s ((s.setHeld false).setSub .disable)
  | create (n p : Half) (hi : i = .create n p) (hc : createCheck n p s = .accept) :
      HostStep i s ((s.allocFails.2.createDevice n p).returnCode .ok)
  | destroy (hi : i = .destroy) (hl : s.devState = .live) (hc : s.dev.chState = .deleted) :
      HostStep i s (s.releaseDevice.returnCode .ok)
  | destroyDrawn (hi : i = .destroy) (hl : s.devState = .live) (hc : s.dev.chState = .disabled) :
      HostStep i s (s.driverFails.2.releaseDevice.returnCode .ok)

/-! ## Host commands -/

/-- What `finish` makes of the operation ChEnable. -/
theorem hostStep_chEnable (i : Instr) (h : finish (chEnable s) = .next t) : HostStep i s t := by
  rcases chEnable_cases s with ⟨_, e⟩ | ⟨_, e⟩ | ⟨_, _, e⟩ | ⟨_, _, e⟩ | ⟨hl, _, _, e⟩ | ⟨hl, hc, _, e⟩ <;> rw [e] at h <;>
    cases h
  · exact .result _
  · exact .dangling
  · exact .dangling
  · exact .result _
  · exact .driverError hl
  · exact .enable hl hc

/-- What `finish` makes of the operation ChTransmit. -/
theorem hostStep_chTransmit (i : Instr) (l : Byte) (h : finish (chTransmit l s) = .next t) : HostStep i s t := by
  rcases chTransmit_cases l s with ⟨_, e⟩ | ⟨_, e⟩ | ⟨_, _, e⟩ | ⟨_, _, _, e⟩ | ⟨_, _, _, e⟩ | ⟨_, _, _, e⟩ |
    ⟨hl, _, _, _, e⟩ | ⟨hl, _, hc, _, e⟩ <;> rw [e] at h <;> cases h
  · exact .result _
  · exact .dangling
  · exact .result _
  · exact .dangling
  · exact .result _
  · exact .result _
  · exact .driverError hl
  · exact .transmit hl hc

/-- What `finish` makes of the operation ChWait. -/
theorem hostStep_chWait (w : Word) (h : finish (chWait w s) = .next t) : HostStep (.chWait w) s t := by
  cases hh : s.hostHeld
  · rcases chWait_cases w s hh with ⟨_, e⟩ | ⟨_, e⟩ | ⟨_, _, e⟩ | ⟨_, _, e⟩ | ⟨_, _, _, e⟩ | ⟨hl, hc, _, e⟩ <;>
      rw [e] at h <;> cases h
    · exact .result _
    · exact .dangling
    · exact .dangling
    · exact .result _
    · exact .result _
    · exact .hold hl hc (.inr ⟨w, rfl⟩)
  · rcases chWait_held_cases w s hh with ⟨_, e⟩ | ⟨_, _, e⟩ | ⟨hc, _, e⟩ <;> rw [e] at h <;> cases h
    · exact .lift _ hh
    · exact .lift _ hh
    · exact .stay hh hc

/-- What `finish` makes of the operation ChDisable. -/
theorem hostStep_chDisable (i : Instr) (h : finish (chDisable s) = .next t) : HostStep i s t := by
  rcases chDisable_cases s with ⟨_, e⟩ | ⟨_, e⟩ | ⟨_, _, e⟩ | ⟨_, _, e⟩ | ⟨hl, _, _, e⟩ | ⟨hl, hc, _, e⟩ <;> rw [e] at h <;>
    cases h
  · exact .result _
  · exact .dangling
  · exact .dangling
  · exact .result _
  · exact .driverError hl
  · exact .disable hl hc

/-- What `finish` makes of the operation ChDelete. -/
theorem hostStep_chDelete (i : Instr) (h : finish (chDelete s) = .next t) : HostStep i s t := by
  rcases chDelete_cases s with ⟨_, e⟩ | ⟨_, e⟩ | ⟨_, _, e⟩ | ⟨_, _, e⟩ | ⟨hl, _, _, e⟩ | ⟨hl, hc, _, e⟩ <;> rw [e] at h <;>
    cases h
  · exact .result _
  · exact .dangling
  · exact .dangling
  · exact .result _
  · exact .driverError hl
  · exact .delete hl hc

/-- REFRESH from any sub-step. A command that paints first does so at `start` (`hs`). -/
theorem hostStep_refresh (i : Instr) (hm : multiStep i = true) (h : refreshStep s = .next t) : HostStep i s t := by
  unfold refreshStep at h
  have enable : s.hostSub = .start ∨ s.hostSub = .enable → continueTo .transmit (chEnable s) = .next t →
      HostStep i s t := by
    intro hs h
    rcases chEnable_cases s with ⟨_, e⟩ | ⟨_, e⟩ | ⟨_, _, e⟩ | ⟨_, _, e⟩ | ⟨hl, _, _, e⟩ | ⟨hl, hc, _, e⟩ <;>
      rw [e] at h <;> cases h
    · exact .result _
    · exact .dangling
    · exact .dangling
    · exact .result _
    · exact .driverError hl
    · exact .subEnable hm hs hl hc
  cases hs : s.hostSub <;> simp only [hs] at h enable
  · exact enable (.inl trivial) h
  · exact enable (.inr trivial) h
  · rcases chTransmit_cases 0#8 s with ⟨_, e⟩ | ⟨_, e⟩ | ⟨_, _, e⟩ | ⟨_, _, _, e⟩ | ⟨_, _, _, e⟩ | ⟨_, _, _, e⟩ |
      ⟨hl, _, _, _, e⟩ | ⟨hl, _, hc, _, e⟩ <;> rw [e] at h <;> cases h
    · exact .result _
    · exact .dangling
    · exact .result _
    · exact .dangling
    · exact .result _
    · exact .result _
    · exact .driverError hl
    · exact .subTransmit hm hs hl hc
  · have held : (s.setHeld false).setSub .disable = t → (s.hostHeld = true ∨ s.devState = .live) →
        s.dev.chState ≠ .transmitting → HostStep i s t := fun e hl hc => e ▸ .subWait hm hs hl hc
    cases hh : s.hostHeld
    · have same : s.setHeld false = s := by simp [State.setHeld, ← hh]
      rcases chWait_cases infiniteTimeout s hh with ⟨_, e⟩ | ⟨_, e⟩ | ⟨_, _, e⟩ | ⟨hl, hc, e⟩ | ⟨_, _, _, e⟩ |
        ⟨hl, hc, _, e⟩ <;> rw [e] at h <;> cases h
      · exact .result _
      · exact .dangling
      · exact .dangling
      · exact held (by rw [same]) (.inr hl) (by rcases hc with hc | hc <;> simp [hc])
      · exact .result _
      · exact .hold hl hc (.inl hs)
    · rcases chWait_held_cases infiniteTimeout s hh with ⟨hc, e⟩ | ⟨_, hw, _⟩ | ⟨hc, _, e⟩
      · rw [e] at h
        cases h
        exact held rfl (.inl hh) hc
      · exact absurd rfl hw
      · rw [e] at h
        cases h
        exact .stay hh hc
  · exact hostStep_chDisable i h

/-- A painting command from any sub-step. -/
theorem hostStep_paint (i : Instr) (p : CmdResult) (hm : multiStep i = true) (hr : i ≠ .refresh)
    (hp : (∃ c, c ≠ .ok ∧ p = .done c s) ∨ p = .dangling s ∨
      s.devState = .live ∧ ∃ vs : List Byte, vs.length = s.dev.bufferLen ∧
        p = .done .ok (s.noteRace.writePixels 0 vs))
    (h : paintThenRefresh p s = .next t) : HostStep i s t := by
  unfold paintThenRefresh at h
  split at h
  · rename_i hs
    rcases hp with ⟨c, hc, e⟩ | e | ⟨hl, vs, hv, e⟩ <;> subst e
    · rw [continueTo_error _ _ _ hc] at h
      cases h
      exact .result _
    · cases h
      exact .dangling
    · cases h
      exact .paint vs ⟨hm, hr⟩ hs hl hv
  · exact hostStep_refresh i hm h

/-- Everything exec can do with a host command that answers a next state. -/
theorem exec_host_cases {i : Instr} (hi : i.hostIssuable = true) (h : exec i s = .next t) : HostStep i s t := by
  cases i with
  | create n p =>
    simp only [exec, execCreate] at h
    split at h
    · cases h
      exact .result _
    · cases h
      exact .refuse
    · rename_i hc
      have hl : s.devState ≠ .live := fun e => by simp [createCheck, e] at hc
      split at h <;> cases h
      · exact .allocError hl
      · exact .create n p rfl hc
  | setPixel n r g b =>
    simp only [exec, execSetPixel] at h
    rcases withDevice_cases s (if n < s.dev.numLeds then
      CmdResult.done .ok (s.noteRace.writePixels (3 * n.toNat) (pixelBytes r g b)) else .done .indexOutOfRange s) with
      ⟨_, e⟩ | ⟨_, e⟩ | ⟨hl, e⟩ <;> rw [e] at h
    · cases h
      exact .result _
    · cases h
      exact .dangling
    · split at h <;> cases h
      · exact .setPixel n r g b rfl hl ‹_›
      · exact .result _
  | setAllPixels r g b =>
    refine hostStep_paint _ _ rfl (by simp) ?_ h
    rcases withDevice_cases s (.done .ok (s.fill r g b)) with ⟨_, e⟩ | ⟨_, e⟩ | ⟨hl, e⟩
    · exact .inl ⟨_, by simp, e⟩
    · exact .inr (.inl e)
    · exact .inr (.inr ⟨hl, _, fillBytes_length _ r g b, e⟩)
  | setColour c =>
    refine hostStep_paint _ _ rfl (by simp) ?_ h
    rcases paintColour_cases c s with ⟨_, e⟩ | ⟨_, e⟩ | ⟨_, _, e⟩ | ⟨r, g, b, hl, _, e⟩
    · exact .inl ⟨_, by simp, e⟩
    · exact .inr (.inl e)
    · exact .inl ⟨_, by simp, e⟩
    · exact .inr (.inr ⟨hl, _, fillBytes_length _ r g b, e⟩)
  | refresh => exact hostStep_refresh _ rfl h
  | clear =>
    refine hostStep_paint _ _ rfl (by simp) ?_ h
    rcases withDevice_cases s (.done .ok s.zeroPixels) with ⟨_, e⟩ | ⟨_, e⟩ | ⟨hl, e⟩
    · exact .inl ⟨_, by simp, e⟩
    · exact .inr (.inl e)
    · exact .inr (.inr ⟨hl, _, List.length_replicate .., e⟩)
  | destroy =>
    simp only [exec, execDestroy] at h
    cases hl : s.devState <;> simp only [withDevice, hl] at h
    · cases h
      exact .result _
    · cases hc : s.dev.chState <;> simp only [hc] at h
      · rcases withDriver_cases s fun t => .done .ok t.releaseDevice with ⟨_, e⟩ | ⟨_, e⟩ <;> rw [e] at h <;> cases h
        · exact .driverError hl
        · exact .destroyDrawn rfl hl hc
      · cases h
        exact .result _
      · cases h
        exact .result _
      · cases h
        exact .destroy rfl hl hc
    · cases h
      exact .dangling
  | encReset =>
    simp only [exec, execEncReset] at h
    cases hl : s.devState <;> simp only [withDevice, hl] at h
    · cases h
      exact .result _
    · split at h <;> cases h
      · exact .result _
      · exact .encReset hl ‹_›
    · cases h
      exact .dangling
  | chEnable => exact hostStep_chEnable _ h
  | chTransmit l => exact hostStep_chTransmit _ l h
  | chWait w => exact hostStep_chWait w h
  | chDisable => exact hostStep_chDisable _ h
  | chDelete => exact hostStep_chDelete _ h
  | encode f => exact absurd hi (by simp [Instr.hostIssuable])
  | bytesEncode f => exact absurd hi (by simp [Instr.hostIssuable])
  | copyEncode f => exact absurd hi (by simp [Instr.hostIssuable])
  | engChunk => exact absurd hi (by simp [Instr.hostIssuable])
  | engEmit => exact absurd hi (by simp [Instr.hostIssuable])
  | engDone => exact absurd hi (by simp [Instr.hostIssuable])

/-! ## Accesses, engine steps, machine steps -/

/-- Only offset 0 is CMD. -/
theorem regAt_cmd {offset : Nat} (h : regAt offset = some .cmd) : offset = 0 := by
  unfold regAt at h
  split at h <;> first | rfl | (split at h <;> simp at h) | simp at h

/-- The host decoder reads host commands only. -/
theorem decodeHost_hostIssuable {w : CmdWord} {i : Instr} (h : decodeHost w = .instr i) : i.hostIssuable = true := by
  unfold decodeHost hostOnly at h
  split at h
  · split at h
    · cases h
      assumption
    · cases h
  · cases h

/-- Everything the host's turn can do (10_state.md R20). -/
inductive AccessStep (s : State) : State → Prop
  /-- A refused access. -/
  | refuse : AccessStep s s.refuse
  /-- A read that finishes. -/
  | read (v : Word) : AccessStep s (s.logRead v).finishAccess
  /-- A read of a device register while DESTROYED. -/
  | readDangling (hd : s.devState = .destroyed) : AccessStep s (s.logRead 0#32).raiseDangling
  /-- A CFG write. -/
  | writeCfg (c : CfgRegs) : AccessStep s (s.setCfg c).finishAccess
  /-- An illegal word. -/
  | illegal (w : CmdWord) (ha : s.currentAccess = some (.write .w64 0 w)) :
      AccessStep s (s.returnCode .invalidArgument)
  /-- A command. -/
  | command {u : State} (w : CmdWord) (i : Instr) (ha : s.currentAccess = some (.write .w64 0 w))
      (hd : decodeHost w = .instr i) (hs : HostStep i s u) : AccessStep s u

theorem readReg_cases (r : Reg) (s : State) : AccessStep s (readReg r s) := by
  unfold readReg
  split
  · split
    · exact .read _
    · exact .read _
    · exact .readDangling ‹_›
  · exact .read _

theorem readAccess_cases (width : Width) (offset : Nat) (s : State) : AccessStep s (readAccess width offset s) := by
  unfold readAccess
  split
  · exact .refuse
  · split
    · exact readReg_cases _ s
    · exact .refuse

theorem writeAccess_cases (r : Reg) (width : Width) (v : BitVec 64) (s : State) :
    AccessStep s (writeAccess r width v s) := by
  unfold writeAccess
  split
  · exact .refuse
  · split
    · exact .writeCfg _
    · exact .refuse

/-- Everything the host's turn can do. -/
theorem hostTurn_cases (h : hostTurn s = .next t) : AccessStep s t := by
  unfold hostTurn at h
  split at h
  · rename_i a ha
    unfold runAccess at h
    split at h
    · cases h
      exact readAccess_cases _ _ s
    · rename_i width offset v
      split at h
      · cases h
        exact .refuse
      · rename_i hr
        have ho := regAt_cmd hr
        subst ho
        split at h
        · rename_i hw
          subst hw
          unfold issueCommand at h
          split at h
          · rename_i i hd
            exact .command v i ha hd (exec_host_cases (decodeHost_hostIssuable hd) h)
          · cases h
            exact .illegal v ha
        · cases h
          exact .refuse
      · cases h
        exact writeAccess_cases _ _ _ s
  · cases h

/-- Encode writes ENC_STATE, the cursors and the memory block (41_strip_encoder_fsm.md R89). -/
theorem encodeChunk_frame (f : Nat) (s : State) :
    ∃ e c k b, (encodeChunk f s).state =
      { s with dev := { s.dev with encState := e, bytesCursor := c, copyCursor := k, memblk := b } } := by
  have copy : ∀ g s, ∃ k b, (copyEncode g s).state =
      { s with dev := { s.dev with copyCursor := k, memblk := b } } := by
    intro g s
    unfold copyEncode
    dsimp only
    split <;> exact ⟨_, _, rfl⟩
  have reset : ∀ g before s, ∃ e k b, (encodeReset g before s).state =
      { s with dev := { s.dev with encState := e, copyCursor := k, memblk := b } } := by
    intro g before s
    obtain ⟨k, b, h⟩ := copy g s
    unfold encodeReset
    dsimp only
    split
    · exact ⟨_, k, b, h⟩
    · rw [h]
      exact ⟨_, k, b, rfl⟩
  unfold encodeChunk
  split
  · obtain ⟨e, k, b, h⟩ := reset f [] s
    exact ⟨e, _, k, b, h⟩
  · dsimp only
    have hb := (bytesEncode_spec f s).2.2
    split
    · rw [hb]
      exact ⟨_, _, _, _, rfl⟩
    · rw [hb]
      obtain ⟨e, k, b, h⟩ := reset (f - (bytesEncode f s).pushed.length) (bytesEncode f s).pushed
        (((s.pushSyms (bytesEncode f s).pushed).setBytesCursor
          (if s.dev.bitCount ≤ s.dev.bytesCursor + f then 0 else s.dev.bytesCursor + f)).setEncState .sendReset)
      rw [h]
      exact ⟨e, _, k, b, rfl⟩

/-- A draw changes the draws to come and nothing else. -/
theorem draw_frame (s : State) : s.draw.2 = { s with inputs := s.draw.2.inputs, drawCount := s.draw.2.drawCount } := by
  unfold State.draw
  split <;> rfl

/-- EngChunk writes the encoder and its draw (42_transmit_channel.md R102). -/
theorem runChunk_frame (s : State) :
    ∃ e n c k b is j, runChunk s.chunkBudget.1 s.chunkBudget.2 =
      { s with
        dev := { s.dev with encState := e, encDone := n, bytesCursor := c, copyCursor := k, memblk := b }
        inputs := is, drawCount := j } := by
  have hs : ∃ is j, s.chunkBudget.2 = { s with inputs := is, drawCount := j } := by
    unfold State.chunkBudget
    split
    · exact ⟨_, _, rfl⟩
    · exact ⟨_, _, draw_frame s⟩
  obtain ⟨is, j, hs⟩ := hs
  obtain ⟨e, c, k, b, h⟩ := encodeChunk_frame s.chunkBudget.1 s.chunkBudget.2
  unfold runChunk
  split <;> rw [h, hs] <;> exact ⟨e, _, c, k, b, is, j, rfl⟩

/-- Everything an engine step can do (42_transmit_channel.md R102 to R104). -/
inductive EngineStep (s : State) : State → Prop
  | chunk (he : s.chunkEnabled = true) : EngineStep s (runChunk s.chunkBudget.1 s.chunkBudget.2)
  | emit (w : SymWord) (rest : List SymWord) (ht : s.transmitting = true) (hb : s.dev.memblk = w :: rest) :
      EngineStep s ((s.setMemblk rest).emit (.sym w))
  | done (ht : s.transmitting = true) (hd : s.dev.encDone = true) (hb : s.dev.memblk = []) : EngineStep s (runDone s)

/-- Everything an engine turn can do. -/
theorem engineTurn_cases {u : Turn} (hu : u ≠ .host) (h : runTurn u s = .next t) : EngineStep s t := by
  cases u with
  | host => exact absurd rfl hu
  | engChunk =>
    simp only [runTurn, exec, execEngChunk] at h
    split at h <;> cases h
    exact .chunk ‹_›
  | engEmit =>
    simp only [runTurn, exec, execEngEmit] at h
    split at h <;> cases h
    rename_i he
    simp only [State.emitEnabled, Bool.and_eq_true, Bool.not_eq_true', List.isEmpty_eq_false_iff] at he
    obtain ⟨w, rest, hb⟩ := List.exists_cons_of_ne_nil he.2
    simpa [runEmit, hb] using EngineStep.emit w rest he.1 hb
  | engDone =>
    simp only [runTurn, exec, execEngDone] at h
    split at h <;> cases h
    rename_i he
    simp only [State.doneEnabled, Bool.and_eq_true, List.isEmpty_iff] at he
    exact .done he.1.1 he.1.2 he.2

/-- Everything a step that answers a next state can do: a host turn or an engine turn, on the state itself or after the
draw that picked the turn. -/
theorem step_next_cases (h : step s = .next t) :
    ∃ s', (s' = s ∨ s' = s.draw.2) ∧ (s.hostEnabled = true ∧ AccessStep s' t ∨ EngineStep s' t) := by
  obtain ⟨u, s', he, hs, hr⟩ := step_cases h
  refine ⟨s', hs, ?_⟩
  by_cases hu : u = .host
  · subst hu
    exact .inl ⟨he, hostTurn_cases hr⟩
  · exact .inr (engineTurn_cases hu hr)

end Sys2Proof.Machine
end

