-- ==== Sys2Proof/Laws/Waveform.lean ====
section
/-! SUPPORT. What an event, a new device and a released device add to the steps of a waveform, and what the steps add to
the waveform. -/

namespace Sys2Proof.Machine

variable (s : State)

/-! ## The steps of a waveform -/

theorem marksAt_append (a b : List PinMark) (k : Nat) : marksAt (a ++ b) k = marksAt a k ++ marksAt b k := by
  simp [marksAt]

theorem marksAt_singleton (k : Nat) (d : Option PinDrive) (j : Nat) :
    marksAt [⟨k, d⟩] j = if k = j then [.drive d] else [] := by
  by_cases h : k = j <;> simp [marksAt, h]

/-- No drive is recorded beyond the wire's end. -/
theorem marksAt_beyond {marks : List PinMark} {n k : Nat} (h : marksWithin marks n = true) (hk : n < k) :
    marksAt marks k = [] := by
  simp only [marksWithin, List.all_eq_true, decide_eq_true_eq] at h
  simp only [marksAt, List.map_eq_nil_iff, List.filter_eq_nil_iff, beq_iff_eq]
  intro m hm e
  have := h m hm
  omega

theorem marksWithin_mono {marks : List PinMark} {n k : Nat} (h : marksWithin marks n = true) (hk : n ≤ k) :
    marksWithin marks k = true := by
  simp only [marksWithin, List.all_eq_true, decide_eq_true_eq] at h ⊢
  exact fun m hm => (h m hm).trans hk

theorem marksWithin_append (a b : List PinMark) (n : Nat) :
    marksWithin (a ++ b) n = (marksWithin a n && marksWithin b n) := by simp [marksWithin]

/-- The steps depend on the wire and the marks alone. -/
theorem State.pinSteps_congr {s t : State} (hw : t.wire = s.wire) (hm : t.pinMarks = s.pinMarks) :
    t.pinSteps = s.pinSteps := by simp only [State.pinSteps, hw, hm]

/-- One more event of the wire is one more step. -/
theorem State.pinSteps_event (t : State) (e : WireEvent) (h : marksWithin s.pinMarks s.wire.length = true)
    (hw : t.wire = s.wire ++ [e]) (hm : t.pinMarks = s.pinMarks) : t.pinSteps = s.pinSteps ++ [.event e] := by
  unfold State.pinSteps
  rw [hw, hm, List.length_append, List.length_singleton, List.range_succ (n := s.wire.length + 1),
    List.range_succ (n := s.wire.length)]
  simp only [List.flatMap_append, List.flatMap_cons, List.flatMap_nil, List.append_nil]
  have hk : ((List.range s.wire.length).flatMap fun k =>
        marksAt s.pinMarks k ++ (s.wire ++ [e])[k]?.toList.map PinStep.event) =
      (List.range s.wire.length).flatMap fun k => marksAt s.pinMarks k ++ s.wire[k]?.toList.map PinStep.event :=
    List.flatMap_congr fun k hk => by rw [List.getElem?_append_left (List.mem_range.mp hk)]
  rw [hk, marksAt_beyond h (Nat.lt_succ_self _)]
  simp

/-- Each event added to the wire is one more step. -/
theorem State.pinSteps_wire (t : State) (es : List WireEvent) (h : marksWithin s.pinMarks s.wire.length = true)
    (hw : t.wire = s.wire ++ es) (hm : t.pinMarks = s.pinMarks) : t.pinSteps = s.pinSteps ++ es.map .event := by
  induction es using List.reverseRecOn generalizing t with
  | nil => simpa using State.pinSteps_congr (by simpa using hw) hm
  | append_singleton es e ih =>
    let u : State := { s with wire := s.wire ++ es }
    have hu : u.pinSteps = s.pinSteps ++ es.map .event := ih u rfl rfl
    rw [u.pinSteps_event t e (marksWithin_mono h (by simp [u])) (by simpa [u] using hw) hm, hu]
    simp

/-- A recorded drive is one more step. -/
theorem State.pinSteps_mark (t : State) (d : Option PinDrive) (hw : t.wire = s.wire)
    (hm : t.pinMarks = s.pinMarks ++ [⟨s.wire.length, d⟩]) : t.pinSteps = s.pinSteps ++ [.drive d] := by
  unfold State.pinSteps
  rw [hw, hm, List.range_succ (n := s.wire.length)]
  simp only [List.flatMap_append, List.flatMap_cons, List.flatMap_nil, List.append_nil, marksAt_append,
    marksAt_singleton]
  have hk : ((List.range s.wire.length).flatMap fun k =>
        marksAt s.pinMarks k ++ (if s.wire.length = k then [PinStep.drive d] else []) ++
          s.wire[k]?.toList.map PinStep.event) =
      (List.range s.wire.length).flatMap fun k => marksAt s.pinMarks k ++ s.wire[k]?.toList.map PinStep.event :=
    List.flatMap_congr fun k hk => by
      rw [if_neg (Nat.ne_of_gt (List.mem_range.mp hk)), List.append_nil]
  rw [hk]
  simp

/-- The event of a step, if it is one. -/
def PinStep.toEvent : PinStep → Option WireEvent
  | .drive _ => none
  | .event e => some e

theorem marksAt_events (marks : List PinMark) (k : Nat) : (marksAt marks k).filterMap PinStep.toEvent = [] := by
  simp only [List.filterMap_eq_nil_iff, marksAt, List.mem_map, forall_exists_index, and_imp]
  rintro x m - rfl
  rfl

/-- The events among the steps are the wire history. -/
theorem State.pinSteps_events : s.pinSteps.filterMap PinStep.toEvent = s.wire := by
  have h : ∀ n, ((List.range n).flatMap fun k => marksAt s.pinMarks k ++ s.wire[k]?.toList.map PinStep.event).filterMap
      PinStep.toEvent = s.wire.take n := by
    intro n
    induction n with
    | zero => rfl
    | succ n ih =>
      rw [List.range_succ, List.flatMap_append, List.filterMap_append, ih, List.take_add_one]
      cases h : s.wire[n]? <;> simp [h, marksAt_events, PinStep.toEvent]
  exact (h _).trans (List.take_of_length_le (Nat.le_succ _))

@[simp] theorem driveAfter_drive (d e : Option PinDrive) (steps : List PinStep) :
    driveAfter d (steps ++ [.drive e]) = e := by simp [driveAfter]

@[simp] theorem driveAfter_event (d : Option PinDrive) (e : WireEvent) (steps : List PinStep) :
    driveAfter d (steps ++ [.event e]) = driveAfter d steps := by simp [driveAfter]

/-! ## The waveform -/

/-- What follows a symbol matters only by its first step. -/
theorem symOut_append (a b : List PinStep) (cuts : List Nat) (h : ∀ r, b ≠ .event .abort :: r) :
    symOut (a ++ b) cuts = symOut a cuts := by
  funext d w
  cases a with
  | nil =>
    cases b with
    | nil => rfl
    | cons x b => cases x with
      | drive d => rfl
      | event e => cases e with
        | abort => exact absurd rfl (h b)
        | _ => rfl
  | cons x a =>
    cases x with
    | drive d => rfl
    | event e => cases e <;> cases cuts <;> rfl

/-- A change of drive at the end adds the level the pin then rests at. -/
theorem pinWave_drive (pin : Half) (d e : Option PinDrive) (steps : List PinStep) (cuts : List Nat) :
    pinWave pin d (steps ++ [.drive e]) cuts = pinWave pin d steps cuts ++ [.rest (idleOn pin e)] := by
  fun_induction pinWave pin d steps cuts <;> simp_all [pinWave, symOut_append]

/-- A waveform whose transactions are all closed ends with the idle level of the drive at its end. -/
theorem pinWave_last (pin : Half) (d : Option PinDrive) (steps : List PinStep) (cuts : List Nat) (opened : Bool)
    (h : (steps.filterMap PinStep.toEvent).foldlM wireNext opened = some false) (l : PinEvent)
    (hl : opened = false → l = .rest (idleOn pin d)) :
    (l :: pinWave pin d steps cuts).getLast? = some (.rest (idleOn pin (driveAfter d steps))) := by
  induction steps generalizing d cuts opened l with
  | nil =>
    obtain rfl : opened = false := by simpa using h
    simp [hl, pinWave, driveAfter]
  | cons x steps ih =>
    cases x with
    | drive e => exact (List.getLast?_cons_cons).trans (ih e cuts opened h _ fun _ => rfl)
    | event e =>
      cases e <;> cases opened <;> simp [PinStep.toEvent, wireNext] at h
      · exact ih d cuts true (by simpa using h) l (by simp)
      · rename_i w
        obtain ⟨a, y, ha⟩ := (l :: (driveOn pin d).elim [] (fun e => symOut steps cuts e w)).eq_nil_or_concat'.resolve_left
          (List.cons_ne_nil _ _)
        change ((l :: (driveOn pin d).elim [] (fun e => symOut steps cuts e w)) ++ pinWave pin d steps cuts).getLast? = _
        rw [ha, List.append_assoc, List.singleton_append, List.getLast?_append_of_ne_nil _ (List.cons_ne_nil _ _)]
        exact ih d cuts true (by simpa using h) y (by simp)
      · exact (List.getLast?_cons_cons).trans (ih d cuts false (by simpa using h) _ fun _ => rfl)
      · exact (List.getLast?_cons_cons).trans (ih d cuts.tail false (by simpa using h) _ fun _ => rfl)

/-! ## Drives and durations -/

@[simp] theorem driveOn_none (pin : Half) : driveOn pin none = none := rfl

@[simp] theorem driveOn_self (d : PinDrive) : driveOn d.pin (some d) = some d := if_pos rfl

theorem driveOn_of_ne {pin : Half} {d : PinDrive} (h : d.pin ≠ pin) : driveOn pin (some d) = none := if_neg h

@[simp] theorem waveSeconds_nil : waveSeconds [] = 0 := rfl

@[simp] theorem waveSeconds_append (a b : List PinEvent) : waveSeconds (a ++ b) = waveSeconds a + waveSeconds b := by
  simp [waveSeconds]

/-- The two pulses of a symbol last as long as the symbol. -/
theorem waveSeconds_symPulses (d : PinDrive) (w : SymWord) :
    waveSeconds (symPulses d w) = tickSeconds (symTicks w) d.res := by
  simp [waveSeconds, symPulses, pulseSeconds, tickSeconds, symTicks, add_div]

end Sys2Proof.Machine
end

