-- ==== Sys2Proof/Tests/Slice0.lean ====
section
/-! SUPPORT. Small tests of the model on values from 95_test_vectors.md and 30_encoding.md, and for every statement
with hypotheses a state that meets them. -/

namespace Sys2Proof.Tests

open Sys2Proof.Machine

/-! ## States the tests start from -/

/-- The parameters 95_test_vectors.md §0 assumes, with a block of 48 symbols. -/
def plat : Platform where
  memBlockDefault := 48#16
  validPins := { allBut := true, ids := [7] }
  boundPins := { allBut := false, ids := [9] }
  allocMayFail := false
  driverMayFail := false
  chunkPolicy := .fullBlock
  clkSrcValues := { allBut := false, ids := [0, 2] }

/-- The same with the other chunk policy. -/
def platFree : Platform := { plat with chunkPolicy := .anyFree }

/-- A strip of `n` LEDs at the defaults (R82, 95 §2.2, §2.7). -/
def strip (n : Half) : Device where
  chState := .disabled
  encState := .sendPixels
  encDone := false
  bytesCursor := 0
  copyCursor := 0
  memblk := []
  symBit0 := 0x00098003#32
  symBit1 := 0x00038009#32
  symReset := 0x00FA00FA#32
  numLeds := n
  pin := 5#16
  resolutionHz := 10000000#32
  memBlock := 48#16
  config := 0x00000400#32

/-- A LIVE strip of two LEDs, its channel in state `c`, with the pixel buffer of 95 §2.3: [0, 255, 0, 0, 0, 0]. -/
def live (c : ChState) : State :=
  { State.resetOn plat with
    devState := .live
    dev := { strip 2#16 with chState := c }
    mem := [(1, 0xFF#8)]
    pinMarks := [⟨0, some ⟨5#16, false, 10000000#32⟩⟩] }

/-- The machine after DESTROY. -/
def destroyed : State :=
  { State.resetOn plat with devState := .destroyed, pinMarks := [⟨0, some ⟨5#16, false, 10000000#32⟩⟩, ⟨0, none⟩] }

/-- `s` with one access left, a write of `i` to CMD. -/
def issue (i : Instr) (s : State) : State := { s with program := [.write .w64 0 (encode i)], hostPos := 0 }

/-- A transaction of a one-LED strip with a block of 8 symbols and the buffer 0x34, 0x12, 0x56 (95 §2.6). -/
def busy : State :=
  { State.resetOn plat with
    devState := .live
    dev := { strip 1#16 with chState := .transmitting, memBlock := 8#16 }
    mem := [(0, 0x34#8), (1, 0x12#8), (2, 0x56#8)]
    wire := [.frameStart]
    pinMarks := [⟨0, some ⟨5#16, false, 10000000#32⟩⟩] }

/-- The next state, if there is one. -/
def nextOf : Host.Outcome State Fault Refusal → Option State
  | .next s => some s
  | .fault _ => none
  | .refused _ => none

/-- Something of the next state. -/
def after {α : Type} (o : Host.Outcome State Fault Refusal) (f : State → α) : Option α := (nextOf o).map f

/-- The result code, FAULT and STATUS after a step. -/
def outcome (o : Host.Outcome State Fault Refusal) : Option (ResultCode × Nat × Nat) :=
  after o fun t => (t.result, (faultWord t).toNat, (statusWord t).toNat)

/-- The first `n` bytes of the pixel buffer. -/
def bytes (n : Nat) (s : State) : List Byte := (List.range n).map (Memory.read s.mem)

/-! ## WellFormed -/

theorem test_ill_formed_encode : (Instr.encode (2 ^ 56)).wellFormed = false := by decide
theorem test_ill_formed_bytes_encode : (Instr.bytesEncode (2 ^ 56)).wellFormed = false := by decide
theorem test_ill_formed_copy_encode : (Instr.copyEncode (2 ^ 56)).wellFormed = false := by decide
theorem test_well_formed_encode : (Instr.encode (2 ^ 56 - 1)).wellFormed = true := by decide

/-! ## Decoding: words written out from the formats of R64, R66 and 95 §2.1 -/


/-- FK: PIN = 5 in [39:24], NUM_LEDS = 2 in [23:8], OPC = 0x01. -/
theorem test_decode_create :
    decodeHost 0b000000000000000000000000_0000000000000101_0000000000000010_00000001#64 = .instr (.create 2#16 5#16) := by
  decide

/-- FK at its largest legal word. -/
theorem test_decode_create_largest : decodeHost 0x000000FFFFFFFF01#64 = .instr (.create 65535#16 65535#16) := by decide

/-- FP: B = 0x56 in [47:40], G = 0x34 in [39:32], R = 0x12 in [31:24], INDEX = 1 in [23:8], OPC = 0x02. -/
theorem test_decode_set_pixel :
    decodeHost 0b0000000000000000_01010110_00110100_00010010_0000000000000001_00000010#64 =
      .instr (.setPixel 1#16 0x12#8 0x34#8 0x56#8) := by decide

/-- FR: B = 3 in [47:40], G = 2 in [39:32], R = 1 in [31:24], [23:8] zero, OPC = 0x03. -/
theorem test_decode_set_all_pixels :
    decodeHost 0b0000000000000000_00000011_00000010_00000001_0000000000000000_00000011#64 =
      .instr (.setAllPixels 1#8 2#8 3#8) := by decide

/-- FC: COLOUR = 4 in [15:8], OPC = 0x04; and COLOUR = 6 decodes too. -/
theorem test_decode_set_colour :
    decodeHost 0x0000000000000404#64 = .instr (.setColour 4#8) ∧
    decodeHost 0x0000000000000604#64 = .instr (.setColour 6#8) := by decide

/-- F0: the seven commands without operands. -/
theorem test_decode_f0 :
    decodeHost 0x05#64 = .instr .refresh ∧ decodeHost 0x06#64 = .instr .clear ∧ decodeHost 0x07#64 = .instr .destroy ∧
    decodeHost 0x10#64 = .instr .encReset ∧ decodeHost 0x20#64 = .instr .chEnable ∧
    decodeHost 0x23#64 = .instr .chDisable ∧ decodeHost 0x24#64 = .instr .chDelete := by decide

/-- FT: LOOP = 1 in [15:8], OPC = 0x21. -/
theorem test_decode_ch_transmit : decodeHost 0x0000000000000121#64 = .instr (.chTransmit 1#8) := by decide

/-- FW: TIMEOUT_MS in [39:8], OPC = 0x22. -/
theorem test_decode_ch_wait :
    decodeHost 0x000000FFFFFFFF22#64 = .instr (.chWait 0xFFFFFFFF#32) ∧
    decodeHost 0x0000000000006422#64 = .instr (.chWait 100#32) := by decide

/-- FI: the rows the table names; the budget is the model's own field (log 7). -/
theorem test_decode_fi :
    decodeRow 0x3080#64 = .instr (.encode 48) ∧ decodeRow 0x0581#64 = .instr (.bytesEncode 5) ∧
    decodeRow 0x0182#64 = .instr (.copyEncode 1) ∧ decodeRow 0x83#64 = .instr .engChunk ∧
    decodeRow 0x84#64 = .instr .engEmit ∧ decodeRow 0x85#64 = .instr .engDone := by decide

/-- A set bit where the format asks for 0: bits 40, 48, 8, 16, 8 and 40 of FK, FP, FR, FC, F0 and FW. -/
theorem test_decode_reserved_bits :
    decodeHost 0x0000010000000201#64 = .illegal .reservedBits ∧
    decodeHost 0x0001000000000002#64 = .illegal .reservedBits ∧
    decodeHost 0x0000030201000103#64 = .illegal .reservedBits ∧
    decodeHost 0x0000000000010004#64 = .illegal .reservedBits ∧
    decodeHost 0x0000000000000105#64 = .illegal .reservedBits ∧
    decodeHost 0x0000010000000022#64 = .illegal .reservedBits := by decide

/-- Unassigned opcodes, and FI opcodes written by the host. -/
theorem test_decode_illegal :
    decodeHost 0x00#64 = .illegal .unassignedOpcode ∧ decodeHost 0x08#64 = .illegal .unassignedOpcode ∧
    decodeHost 0xFFFFFFFFFFFFFFFF#64 = .illegal .unassignedOpcode ∧
    decodeHost 0x80#64 = .illegal .internalOpcode ∧ decodeHost 0x85#64 = .illegal .internalOpcode := by decide

/-- The words of R71 and R75 are what the encoder gives. -/
theorem test_encode_words :
    encode (.create 2#16 5#16) = 0x0000000005000201#64 ∧ encode (.setPixel 3#16 0#8 0#8 0#8) = 0x0000000000000302#64 ∧
    encode (.setAllPixels 0#8 255#8 255#8) = 0x0000FFFF00000003#64 ∧ encode (.chWait 100#32) = 0x6422#64 := by decide

/-- `decodeTableWord` reads a row's own match word. -/
theorem test_decode_table_word :
    decodeTableWord 64 0x24 = some .chDelete ∧ decodeTableWord 64 0x08 = none ∧
    decodeTableWord 64 0x85 = some .engDone := by decide

/-! ## Durations and symbol words (95 §2.2) -/

/-- The ticks of 300, 900 ns and the reset half of 50 µs at four resolutions. -/
theorem test_ticks :
    ticks 10000000 300 = 3 ∧ ticks 10000000 900 = 9 ∧ ticks 5000000 300 = 2 ∧ ticks 5000000 900 = 5 ∧
    ticks 1000000 300 = 0 ∧ ticks 10000000 25 = 0 ∧ ticks 10000000 50 = 1 ∧
    resetHalf 10000000 50 = 250 ∧ resetHalf 2500000 50 = 62 ∧ resetHalf 3000000 51 = 76 := by decide

/-- The symbols at 80 MHz. -/
theorem test_symbols_80_mhz :
    let c := { CfgRegs.reset plat with resolutionHz := 80000000#32 }
    bit0Sym c = 0x00488018#32 ∧ bit1Sym c = 0x00188048#32 ∧ resetSym c = 0x07D007D0#32 := by decide

/-- TimingOK at 2.5 MHz and not at 2 MHz. -/
theorem test_timing_ok :
    timingOk (CfgRegs.reset plat) 2500000 = true ∧ timingOk (CfgRegs.reset plat) 3333333 = true ∧
    timingOk (CfgRegs.reset plat) 2000000 = false := by decide

/-- W3: the byte 0b10110010, bit 7 first. -/
theorem test_byte_syms :
    byteSyms (strip 1#16) 0xB2#8 =
      [0x00038009#32, 0x00098003#32, 0x00038009#32, 0x00038009#32, 0x00098003#32, 0x00098003#32, 0x00038009#32,
        0x00098003#32] := by decide

/-- 95 §2.10: B0 at 10 MHz, high 3 ticks then low 9, and the other way up when inverted. -/
theorem test_wave :
    symPulses ⟨5#16, false, 10000000#32⟩ 0x00098003#32 = [.pulse true 3 10000000#32, .pulse false 9 10000000#32] ∧
    symPulses ⟨5#16, true, 10000000#32⟩ 0x00098003#32 = [.pulse false 3 10000000#32, .pulse true 9 10000000#32] := by decide

/-! ## CREATE (95 §2.7) -/

theorem test_create :
    after (exec (.create 2#16 5#16) (State.resetOn plat)) (fun t => (t.dev.config, t.dev.memBlock, statusWord t)) =
      some (0x00000400#32, 48#16, 1#32) := by decide

theorem test_create_checks :
    outcome (exec (.create 1#16 7#16) (State.resetOn plat)) = some (.invalidArgument, 0, 0) ∧
    outcome (exec (.create 1#16 9#16) (State.resetOn plat)) = some (.invalidArgument, 0, 0) ∧
    outcome (exec (.create 1#16 5#16)
      { State.resetOn plat with cfg := { CfgRegs.reset plat with flags := 4#4 } }) = some (.ok, 4, 0) ∧
    outcome (exec (.create 1#16 5#16) (live .disabled)) = some (.invalidArgument, 0, 1) := by decide

/-! ## Pixel commands (95 §2.7, W1, W2) -/

theorem test_set_pixel :
    after (exec (.setPixel 1#16 0x12#8 0x34#8 0x56#8) (live .disabled)) (bytes 6) =
      some [0#8, 0xFF#8, 0#8, 0x34#8, 0x12#8, 0x56#8] := by decide

theorem test_set_pixel_checks :
    outcome (exec (.setPixel 2#16 1#8 2#8 3#8) (live .transmitting)) = some (.indexOutOfRange, 0, 9) ∧
    outcome (exec (.setPixel 0#16 1#8 2#8 3#8) (live .transmitting)) = some (.ok, 1, 9) := by decide

theorem test_set_all_pixels :
    after (exec (.setAllPixels 1#8 2#8 3#8) (live .disabled)) (bytes 6) = some [2#8, 1#8, 3#8, 2#8, 1#8, 3#8] := by
  decide

theorem test_set_all_pixels_enabled :
    outcome (exec (.setAllPixels 1#8 2#8 3#8) { live .enabled with hostSub := .enable }) =
      some (.deviceError, 0, 5) := by decide

theorem test_set_colour :
    after (exec (.setColour 4#8) (live .disabled)) (bytes 6) = some [255#8, 0#8, 255#8, 255#8, 0#8, 255#8] := by decide

theorem test_set_colour_six :
    outcome (exec (.setColour 6#8) (live .deleted)) = some (.invalidArgument, 0, 0xD) ∧
    outcome (exec (.setColour 6#8) destroyed) = some (.ok, 2, 2) := by decide

theorem test_clear :
    after (exec .clear (live .transmitting)) (fun t => (bytes 6 t, t.faultRace, t.hostSub)) =
      some ([0#8, 0#8, 0#8, 0#8, 0#8, 0#8], true, .enable) := by decide

theorem test_clear_null : outcome (exec .clear (State.resetOn plat)) = some (.invalidArgument, 0, 0) := by decide

/-! ## REFRESH and DESTROY (95 §2.7) -/

theorem test_refresh_steps :
    after (exec .refresh (live .disabled)) (fun t => (statusWord t, t.hostSub)) = some (5#32, .transmit) ∧
    after (exec .refresh { live .enabled with hostSub := .transmit }) (fun t => (statusWord t, t.wire)) =
      some (9#32, [.frameStart]) ∧
    after (exec .refresh { live .transmitting with hostSub := .wait }) (fun t => statusWord t) = some 0x49#32 ∧
    outcome (exec .refresh { live .enabled with hostSub := .disable }) = some (.ok, 0, 1) := by decide

theorem test_refresh_errors :
    outcome (exec .refresh (live .enabled)) = some (.deviceError, 0, 5) ∧
    outcome (exec .refresh (live .transmitting)) = some (.deviceError, 0, 9) ∧
    outcome (exec .refresh (live .deleted)) = some (.ok, 2, 0xD) := by decide

theorem test_destroy :
    outcome (exec .destroy (live .disabled)) = some (.ok, 0, 2) ∧
    outcome (exec .destroy (live .deleted)) = some (.ok, 0, 2) ∧
    outcome (exec .destroy (live .transmitting)) = some (.deviceError, 0, 9) := by decide

/-! ## ENC_RESET and the channel commands (95 §2.4, §2.5) -/

theorem test_enc_reset :
    outcome (exec .encReset (live .transmitting)) = some (.hardwareBusy, 0, 9) ∧
    after (exec .encReset { live .deleted with dev := { strip 2#16 with chState := .deleted, bytesCursor := 20 } })
      (fun t => t.dev.bytesCursor) = some 0 := by decide

theorem test_ch_enable :
    outcome (exec .chEnable (live .disabled)) = some (.ok, 0, 5) ∧
    outcome (exec .chEnable (live .transmitting)) = some (.deviceError, 0, 9) := by decide

theorem test_ch_transmit :
    outcome (exec (.chTransmit 0#8) (live .enabled)) = some (.ok, 0, 9) ∧
    outcome (exec (.chTransmit 0#8) (live .transmitting)) = some (.hardwareBusy, 0, 9) := by decide

theorem test_ch_transmit_loop :
    outcome (exec (.chTransmit 1#8) (live .deleted)) = some (.invalidArgument, 0, 0xD) ∧
    outcome (exec (.chTransmit 1#8) destroyed) = some (.ok, 2, 2) := by decide

theorem test_ch_wait :
    outcome (exec (.chWait 0#32) (live .transmitting)) = some (.timeout, 0, 9) ∧
    outcome (exec (.chWait 100#32) (live .enabled)) = some (.ok, 0, 5) := by decide

theorem test_ch_wait_held :
    outcome (exec (.chWait 100#32) (live .transmitting)) = some (.ok, 0, 0x49) ∧
    outcome (exec (.chWait 100#32) { live .transmitting with hostHeld := true }) = some (.timeout, 0, 9) ∧
    outcome (exec (.chWait 0xFFFFFFFF#32) { live .enabled with hostHeld := true }) = some (.ok, 0, 5) := by decide

theorem test_ch_disable :
    after (exec .chDisable { busy with dev := { busy.dev with memblk := [0x00098003#32], bytesCursor := 16 } })
      (fun t => (t.dev.memblk, t.dev.bytesCursor, t.wire)) = some ([], 16, [.frameStart, .abort]) := by decide

theorem test_ch_disable_idle :
    outcome (exec .chDisable (live .disabled)) = some (.deviceError, 0, 1) ∧
    outcome (exec .chDisable (live .enabled)) = some (.ok, 0, 1) := by decide

theorem test_ch_delete :
    outcome (exec .chDelete (live .disabled)) = some (.ok, 0, 0xD) ∧
    outcome (exec .chDelete (live .enabled)) = some (.deviceError, 0, 5) := by decide

/-! ## Encoding and the engine (95 §2.3, §2.4, §2.6) -/

/-- V-BE-1 and V-BE-6. -/
theorem test_bytes_encode :
    after (exec (.bytesEncode 5) (live .disabled)) (fun t => (t.dev.bytesCursor, t.dev.memblk.length)) = some (5, 5) ∧
    (bytesEncode 1 { live .disabled with dev := { strip 2#16 with bytesCursor := 47 } }).result = .complete := by decide

/-- V-CE-1 and V-CE-2. -/
theorem test_copy_encode :
    (copyEncode 0 (live .disabled)).result = .memFull ∧
    after (exec (.copyEncode 1) (live .disabled)) (fun t => t.dev.memblk) = some [0x00FA00FA#32] := by decide

/-- V-FSM-2: an exact fill is MEM_FULL and leaves SEND_RESET; the next call sends the reset symbol alone. -/
theorem test_encode_exact :
    after (exec (.encode 48) (live .transmitting)) (fun t => (t.dev.encState, t.dev.bytesCursor, t.dev.memblk.length)) =
      some (.sendReset, 0, 48) ∧
    after (exec (.encode 8) { live .transmitting with dev := { strip 2#16 with encState := .sendReset } })
      (fun t => (t.dev.encState, t.dev.memblk)) = some (.sendPixels, [0x00FA00FA#32]) := by decide

/-- V-FSM-1: pixels and reset symbol in one call. -/
theorem test_encode_fall_through :
    (encodeChunk 64 (live .transmitting)).pushed.length = 49 ∧
    (encodeChunk 64 (live .transmitting)).result = .complete := by decide

/-- ENG_CHUNK #1, and #4 with its STATUS. -/
theorem test_eng_chunk :
    after (exec .engChunk busy) (fun t => (t.dev.memblk.length, t.dev.bytesCursor, statusWord t)) = some (8, 8, 9#32) ∧
    after (exec .engChunk { busy with dev := { busy.dev with encState := .sendReset } })
      (fun t => (t.dev.memblk.length, statusWord t)) = some (1, 0x29#32) := by decide

/-- A chunk under ANY_FREE takes from 1 to all free slots, as the draw says. -/
theorem test_eng_chunk_any_free :
    after (exec .engChunk { busy with platform := platFree, inputs := [2] }) (fun t => t.dev.memblk.length) = some 3 := by
  decide

theorem test_eng_emit :
    after (exec .engEmit { busy with dev := { busy.dev with memblk := [0x00098003#32, 0x00038009#32] } })
      (fun t => (t.dev.memblk, t.wire)) = some ([0x00038009#32], [.frameStart, .sym 0x00098003#32]) := by decide

theorem test_eng_done :
    after (exec .engDone { busy with dev := { busy.dev with encDone := true } })
      (fun t => (statusWord t, t.wire)) = some (5#32, [.frameStart, .frameEnd]) := by decide

/-! ## Register accesses (95 §2.9) and steps -/

theorem test_reads :
    after (runAccess (.read .w32 0x008) (live .disabled)) (fun t => t.reads) = some [0#32] ∧
    after (runAccess (.read .w8 0x1001) (live .disabled)) (fun t => t.reads) = some [0xFF#32] ∧
    after (runAccess (.read .w8 0x1006) (live .disabled)) (fun t => t.reads) = some [0#32] ∧
    after (runAccess (.read .w32 0x02C) (State.resetOn plat)) (fun t => (t.reads, (faultWord t))) = some ([0#32], 0#32) ∧
    after (runAccess (.read .w32 0x02C) destroyed) (fun t => (t.reads, faultWord t)) = some ([0#32], 2#32) := by decide

theorem test_refused_accesses :
    after (runAccess (.read .w64 0x000) (live .disabled)) faultWord = some 4#32 ∧
    after (runAccess (.write .w32 0x008 0#64) (live .disabled)) faultWord = some 4#32 ∧
    after (runAccess (.write .w32 0x068 0#64) (live .disabled)) faultWord = some 4#32 ∧
    after (runAccess (.read .w16 0x00C) (live .disabled)) faultWord = some 4#32 ∧
    after (runAccess (.read .w32 0x00E) (live .disabled)) faultWord = some 4#32 ∧
    after (runAccess (.write .w8 0x1000 0#64) (live .disabled)) faultWord = some 4#32 := by decide

theorem test_cfg_writes :
    after (runAccess (.write .w32 0x044 0x00012345#64) (live .disabled))
      (fun t => (regValue t .cfgMemBlockSymbols, t.dev.memBlock)) = some (0x2345#32, 48#16) ∧
    after (runAccess (.write .w32 0x048 0xFFFFFFFF#64) (live .disabled)) (fun t => regValue t .cfgFlags) =
      some 0xF#32 := by decide

/-! ## The waveform (42_transmit_channel.md R107) -/

/-- An inverted device on pin 5 at 10 MHz sends a "0" bit and is destroyed; an uninverted one on pin 5 at 20 MHz then
sends one of the same ticks, which an abort cuts. -/
def twoDevices : State :=
  { State.resetOn plat with
    wire := [.frameStart, .sym 0x00098003#32, .frameEnd, .frameStart, .sym 0x00098003#32, .abort]
    pinMarks := [⟨0, some ⟨5#16, true, 10000000#32⟩⟩, ⟨3, none⟩, ⟨3, some ⟨5#16, false, 20000000#32⟩⟩] }

/-- The level is 0 before the first device and between the two; the cut leaves 5 of 12 ticks; each pulse keeps the
resolution of its device. -/
theorem test_waveform_of_two_devices :
    twoDevices.waveform 5#16 [4] =
      [.rest false, .rest true, .pulse false 3 10000000#32, .pulse true 9 10000000#32, .rest true, .rest false,
        .rest false, .pulse true 3 20000000#32, .pulse false 2 20000000#32, .rest false] := by decide

/-- 12 ticks at 10 MHz and 5 at 20 MHz: 1.2 µs and 0.25 µs. -/
theorem test_wave_seconds : waveSeconds (twoDevices.waveform 5#16 [4]) = 145 / 100000000 := by
  rw [test_waveform_of_two_devices]; norm_num [waveSeconds, pulseSeconds, tickSeconds]

/-- Another pin stays at 0. -/
theorem test_waveform_of_other_pin :
    twoDevices.waveform 6#16 [] = [.rest false, .rest false, .rest false, .rest false, .rest false, .rest false] := by
  decide

/-- CREATE with INVERT_OUT and DESTROY record the drive of the pin. -/
theorem test_pin_marks :
    after (exec (.create 1#16 5#16)
        { State.resetOn plat with cfg := { CfgRegs.reset plat with flags := 2#4 }, inputs := [1, 2, 3] })
      (fun t => (t.pinMarks, t.idleLevel 5#16)) = some ([⟨0, some ⟨5#16, true, 10000000#32⟩⟩], true) ∧
    after (exec .destroy { live .disabled with wire := [.frameStart, .frameEnd] })
      (fun t => (t.pinMarks, t.idleLevel 5#16)) = some ([⟨0, some ⟨5#16, false, 10000000#32⟩⟩, ⟨2, none⟩], false) := by decide

/-- A step runs the host's access. -/
theorem test_step : after (step (issue .chEnable (live .disabled))) (fun t => (statusWord t, t.hostPos)) = some (5#32, 1) := by
  decide

/-- The first step after reset runs the word `withFetchWord` places, an internal one too. -/
theorem test_step_from_reset :
    after (step ((State.resetOn plat).withFetchWord 64 0x20)) (fun t => (t.result, t.hostPos)) =
      some (.invalidArgument, 1) ∧
    after (step ((State.resetOn plat).withFetchWord 64 0x85)) (fun t => t.dev.chState) = some .enabled := by decide

/-- An illegal word while DESTROYED: INVALID_ARGUMENT, no DANGLING. -/
theorem test_illegal_word : outcome (issueCommand 0x105#64 destroyed) = some (.invalidArgument, 0, 2) := by decide

/-! ## Witnesses: states and operands that meet the hypotheses of the statements -/

/-- `busy` with symbols in its block and a host with an access left, so that two turns are enabled. -/
def contended : State :=
  { issue .chDisable busy with dev := { busy.dev with memblk := [0x00098003#32], bytesCursor := 1 }, inputs := [0] }

/-- A transaction fully encoded and sent, ready for ENG_DONE. -/
def encoded : State := { busy with dev := { busy.dev with encDone := true } }

/-- A transaction that has encoded its pixels but not its reset symbol. -/
def pixelsDone : State := { busy with dev := { busy.dev with encState := .sendReset } }

/-- A host held in an infinite wait. -/
def heldForever (s : State) : State := { issue (.chWait 0xFFFFFFFF#32) s with hostHeld := true }

theorem strip_inv : (strip 2#16).Inv where
  leds := by decide
  capacity := by decide
  count := by decide
  cursor := by decide
  copy := rfl
  reset := fun _ => rfl
  done := fun h => absurd h (by decide)
  idle := fun _ => rfl
  bit0 := by decide
  bit1 := by decide
  resetSymbol := by decide
  config := by decide
  queue := by decide
  resolution := by decide

theorem busy_inv : busy.Inv where
  memWf := by decide
  memBelow := by decide
  absent := fun h => absurd rfl h
  device := fun _ =>
    { leds := by decide, capacity := by decide, count := by decide, cursor := by decide, copy := rfl
      reset := fun _ => rfl, done := fun h => absurd h (by decide), idle := fun h => absurd rfl h, bit0 := by decide
      bit1 := by decide, resetSymbol := by decide, config := by decide, queue := by decide, resolution := by decide }
  pos := by decide
  sub := fun h => absurd rfl h
  ready := trivial
  held := fun h => absurd h (by decide)
  marks := by decide
  drive := by decide

theorem resetOn_inv : (State.resetOn plat).Inv where
  memWf := rfl
  memBelow := rfl
  absent := fun _ => rfl
  device := fun h => absurd h (by decide)
  pos := Nat.zero_le _
  sub := fun h => absurd rfl h
  ready := trivial
  held := fun h => absurd h (by decide)
  marks := rfl
  drive := rfl

/-- Any command may be the next one of a LIVE device whose channel is DISABLED. -/
theorem issue_inv (i : Instr) : (issue i (live .disabled)).Inv where
  memWf := (by decide : Memory.wf (live .disabled).mem = true)
  memBelow := (by decide : Memory.below (live .disabled).dev.bufferLen (live .disabled).mem = true)
  absent := fun h => absurd rfl h
  device := fun _ => strip_inv
  pos := Nat.zero_le _
  sub := fun h => absurd rfl h
  ready := trivial
  held := fun h => absurd (show (live .disabled).hostHeld = true from h) (by decide)
  marks := rfl
  drive := (by decide : driveAfter none (live .disabled).pinSteps = (live .disabled).pinDrive)

theorem witness_DecodeOfEncode : (Instr.encode (2 ^ 56 - 1)).wellFormed = true ∧ (Instr.create 0#16 65535#16).wellFormed = true := by
  decide

theorem witness_EncodeOfDecode : decodeHost 0x000000FFFFFFFF22#64 = .instr (.chWait 0xFFFFFFFF#32) := by decide

theorem witness_IllegalWordsRejected :
    (∀ row ∈ hostRows, (0x0000010000000022#64 : CmdWord) &&& row.2 ≠ row.1) ∧
    (∀ row ∈ hostRows, (0x00#64 : CmdWord) &&& row.2 ≠ row.1) ∧
    ∃ why, decodeHost 0x0000010000000022#64 = .illegal why := by
  exact ⟨by simp [hostRows], by simp [hostRows], .reservedBits, by decide⟩

theorem witness_StepRunsDecodedCommand :
    (issue .refresh (live .disabled)).currentAccess = some (.write .w64 0 0x05#64) ∧
    decodeHost 0x05#64 = .instr .refresh ∧ (issue .refresh (live .disabled)).enabledTurns = [.host] ∧
    contended.currentAccess = some (.write .w64 0 0x23#64) ∧ decodeHost 0x23#64 = .instr .chDisable ∧
    contended.pickTurn = some (.host, { contended with inputs := [] }) := by decide

theorem witness_StepKeepsInvariant : busy.Inv ∧ ∃ t, step busy = .next t := ⟨busy_inv, _, rfl⟩

theorem witness_StepsOnlyAdd : ∃ t, step contended = .next t := ⟨_, rfl⟩

theorem witness_WireStaysBracketed : wireOpen busy.wire = some busy.transmitting ∧ ∃ t, step busy = .next t :=
  ⟨by decide, _, rfl⟩

theorem witness_OnlyCommandsWriteResult :
    ∃ t, step (issue (.setPixel 2#16 0#8 0#8 0#8) (live .disabled)) = .next t ∧ t.result ≠ .ok :=
  ⟨_, rfl, by decide⟩

theorem witness_LatchedRegistersFixed :
    ∃ t, step (issue .chEnable (live .disabled)) = .next t ∧ (live .disabled).devState = .live ∧ t.devState = .live :=
  ⟨_, rfl, rfl, rfl⟩

/-- LIVE to LIVE above; NONE to LIVE here. -/
theorem witness_LifecycleTransitions :
    ∃ t, step (issue (.create 1#16 5#16) { State.resetOn plat with inputs := [1, 2, 3] }) = .next t ∧
      (State.resetOn plat).devState ≠ .live ∧ t.devState = .live :=
  ⟨_, rfl, by decide, by decide⟩

theorem witness_PixelBufferWriters :
    (∃ t, exec .chEnable (live .disabled) = .next t ∧ writesPixels .chEnable = false) ∧
    ∃ t, exec .clear (live .transmitting) = .next t ∧ t.faultRace ≠ (live .transmitting).faultRace :=
  ⟨⟨_, rfl, rfl⟩, _, rfl, by decide⟩

theorem witness_EngineStepFrame : Turn.engChunk ≠ .host ∧ ∃ t, runTurn .engChunk busy = .next t := ⟨by decide, _, rfl⟩

theorem witness_ScheduleIsFree : contended.turnEnabled .host = true ∧ contended.turnEnabled .engEmit = true := by decide

theorem witness_CommandsReturnListedCodes :
    (issue .chDelete (live .disabled)).Inv ∧ (issue .chDelete (live .disabled)).currentCommand = some .chDelete ∧
    ∃ t, exec .chDelete (issue .chDelete (live .disabled)) = .next t ∧ t.hostPos = 1 :=
  ⟨issue_inv _, by decide, _, rfl, rfl⟩

/-- Both values of HOST_SUB, and both sides of the equivalence. -/
theorem witness_DanglingExactly :
    (live .deleted).hostHeld = false ∧ (live .deleted).faultDangling = false ∧ (live .deleted).hostSub = .start ∧
    danglesIn .chEnable (live .deleted) ∧ ¬ danglesIn .chEnable (live .enabled) ∧
    danglesIn .clear { live .deleted with hostSub := .enable } ∧ ¬ danglesIn .clear (live .deleted) := by
  simp [live, State.resetOn, danglesIn]

theorem witness_NoDeadlock : busy.Inv ∧ busy.transmitting = true := ⟨busy_inv, by decide⟩

theorem witness_EveryRunStops : (issue .refresh (live .disabled)).Inv := issue_inv _

/-- The edges of the clauses: first and last offsets permitted, the ones beside them, and each DEV_STATE. -/
theorem witness_RegisterAccessRules :
    permittedRead .w64 0x000 = false ∧ permittedRead .w32 0x068 = false ∧ permittedRead .w8 0x0FFF = false ∧
    permittedRead .w32 0x1000 = false ∧ permittedWrite .w32 0x03C = false ∧ permittedWrite .w32 0x000 = false ∧
    permittedWrite .w8 0x1000 = false ∧ permittedRead .w32 0x008 = true ∧ permittedRead .w32 0x064 = true ∧
    permittedRead .w8 0x1000 = true ∧ deviceOffset 0x010 = false ∧ deviceOffset 0x014 = true ∧
    deviceOffset 0x03C = true ∧ deviceOffset 0x040 = false ∧ deviceOffset 0x1000 = true ∧
    (live .disabled).devState = .live ∧ (State.resetOn plat).devState = .none ∧ destroyed.devState = .destroyed := by
  decide

theorem witness_RegisterAccessRules_table :
    (0x03C, Reg.devConfig, 0x00000400#32) ∈ readTable (live .disabled) ∧
    (0x008, Reg.result, 5#32) ∈ readTable { live .enabled with result := .timeout } := by decide

theorem witness_CfgWriteTruncates : (0x064, Reg.cfgT1lNs, 0x0000FFFF#32) ∈ cfgTable := by decide

theorem witness_StatusFields : (live .deleted).devState = .live ∧ destroyed.devState ≠ .live := by decide

/-- The longest reset time 10 MHz admits (95 §2.2). -/
theorem witness_SymbolsHoldTheirDurations :
    (durations { CfgRegs.reset plat with resetUs := 6553#16 }).all durationOk = true := by decide

theorem witness_TickErrorBound : 3333334 ≤ 3333334 := Nat.le_refl _

theorem witness_FrameSymbolOrder : 5 < 3 * (strip 2#16).numLeds.toNat ∧ 7 < 8 := by decide

/-- A budget of 0, an exact fill, and a call from the last bit. -/
theorem witness_BytesEncodeResult :
    (live .disabled).devState = .live ∧ (live .disabled).dev.memblk.length + 0 ≤ (live .disabled).dev.memBlock.toNat ∧
    (live .disabled).dev.memblk.length + 48 ≤ (live .disabled).dev.memBlock.toNat := by decide

theorem witness_BytesEncodeResumes :
    (live .disabled).dev.numLeds ≠ 0#16 ∧ (live .disabled).dev.bytesCursor = 0 ∧
    (bytesCalls [5, 0, 43] (live .disabled)).isSome = true ∧ (bytesCalls [5, 0, 42] (live .disabled)).isSome = false := by
  decide

theorem witness_CopyEncodeResult :
    (live .disabled).devState = .live ∧ (live .disabled).dev.copyCursor = 0 ∧
    (live .disabled).dev.memblk.length < (live .disabled).dev.memBlock.toNat := by decide

/-- All the hypotheses at f = left = 48 (an exact fill), at f = 2 with one bit left (the fall-through), and in SEND_RESET. -/
theorem witness_EncodeTransitions :
    (live .transmitting).devState = .live ∧ 1 ≤ 48 ∧
    (live .transmitting).dev.memblk.length + 48 ≤ (live .transmitting).dev.memBlock.toNat ∧
    (live .transmitting).dev.copyCursor = 0 ∧ (live .transmitting).dev.bytesCursor < (live .transmitting).dev.bitCount ∧
    (live .transmitting).dev.bitCount = 48 ∧
    { live .transmitting with dev := { strip 2#16 with bytesCursor := 47 } }.dev.bytesCursor < 48 ∧
    (strip 2#16).memblk.length + 2 ≤ (strip 2#16).memBlock.toNat ∧ pixelsDone.devState = .live ∧
    pixelsDone.dev.memblk.length + 1 ≤ pixelsDone.dev.memBlock.toNat ∧ pixelsDone.dev.copyCursor = 0 ∧
    pixelsDone.dev.bytesCursor < pixelsDone.dev.bitCount := by decide

theorem witness_FrameIntegrity :
    (live .transmitting).dev.numLeds ≠ 0#16 ∧ (live .transmitting).dev.atRest ∧ (∀ f ∈ [47, 1, 1], 1 ≤ f) ∧
    (encodeCalls [47, 1, 1] (live .transmitting)).isSome = true :=
  ⟨by decide, ⟨rfl, rfl, rfl⟩, by decide, by decide⟩

/-- V-FSM-4: 49 symbols in blocks of 10 take 5 calls, not 4. -/
theorem witness_InvocationCount :
    (live .transmitting).dev.numLeds ≠ 0#16 ∧ (live .transmitting).dev.atRest ∧ 1 ≤ 10 ∧
    (encodeCalls (List.replicate 5 10) (live .transmitting)).isSome = true ∧
    (encodeCalls (List.replicate 4 10) (live .transmitting)).isSome = false ∧
    (∀ f ∈ [10, 10, 9, 10, 10], 1 ≤ f ∧ f ≤ 10) ∧ (encodeCalls [10, 10, 9, 10, 10] (live .transmitting)).isSome = true :=
  ⟨by decide, ⟨rfl, rfl, rfl⟩, by decide, by decide, by decide, by decide, by decide⟩

theorem witness_TransmitResumesDeadCursor :
    let s := { live .enabled with dev := { strip 2#16 with chState := .enabled, bytesCursor := 47 } }
    ∃ t, exec (.chTransmit 0#8) s = .next t ∧ s.transmitting = false ∧ t.transmitting = true :=
  ⟨_, rfl, by decide, by decide⟩

theorem witness_ChWaitResult :
    (live .transmitting).hostHeld = false ∧ (heldForever (live .enabled)).hostHeld = true ∧
    (heldForever (live .enabled)).dev.chState ≠ .transmitting ∧ (heldForever busy).hostHeld = true ∧
    (heldForever busy).dev.chState = .transmitting ∧ (100#32 : Word) ≠ 0xFFFFFFFF#32 ∧
    (heldForever busy).currentCommand = some (.chWait 0xFFFFFFFF#32) ∧ (heldForever busy).hostStopped = false := by decide

theorem witness_InfiniteWaitSynchronises :
    (heldForever busy).hostHeld = true ∧ (heldForever busy).heldTimeout = 0xFFFFFFFF#32 ∧
    (heldForever busy).hostPos < (heldForever busy).program.length ∧ (heldForever busy).hostStopped = false ∧
    (heldForever (live .enabled)).hostEnabled = true ∧
    after (exec (.chWait 0xFFFFFFFF#32) (heldForever (live .enabled))) (fun t => t.hostPos) = some 1 := by decide

/-- Each policy, and a state where the chunk is not enabled. -/
theorem witness_EngChunkResult :
    busy.devState = .live ∧ busy.dev.chState = .transmitting ∧ busy.dev.encDone = false ∧
    busy.platform.chunkPolicy = .fullBlock ∧ busy.dev.memblk = [] ∧ platFree.chunkPolicy = .anyFree ∧
    contended.dev.memblk.length < contended.dev.memBlock.toNat ∧ contended.dev.memblk ≠ [] ∧
    encoded.dev.encDone = true := by decide

theorem witness_EngEmitDoneResult :
    contended.devState = .live ∧ contended.dev.chState = .transmitting ∧ contended.dev.memblk = [0x00098003#32] ∧
    busy.dev.memblk = [] ∧ encoded.devState = .live ∧ encoded.dev.chState = .transmitting ∧
    encoded.dev.encDone = true ∧ encoded.dev.memblk = [] ∧ busy.dev.encDone = false := by decide

theorem witness_EngineConservesSymbols : busy.Inv ∧ ∃ t, runTurn .engChunk busy = .next t := ⟨busy_inv, _, rfl⟩

theorem witness_TransactionCompletes : busy.Inv ∧ busy.transmitting = true ∧ busy.hostEnabled = false :=
  ⟨busy_inv, by decide, by decide⟩

theorem witness_FrameDuration :
    symTicks (strip 1#16).symBit0 = 12 ∧ symTicks (strip 1#16).symBit1 = 12 ∧
    (durations (CfgRegs.reset plat)).all durationOk = true := by decide

theorem witness_EngineIgnoresConfig : Turn.engDone ≠ .host ∧ ∃ t, runTurn .engDone encoded = .next t :=
  ⟨by decide, _, rfl⟩

/-- States that meet the invariant before a CREATE, before a DESTROY and with no transaction open; and a symbol's cuts from
its first tick to its last, on either side of its second half. -/
theorem witness_WaveformOfTransaction :
    (State.resetOn plat).Inv ∧ (State.resetOn plat).devState ≠ .live ∧
    (∃ t, exec (.create 1#16 5#16) (State.resetOn plat) = .next t ∧ t.devState = .live) ∧
    (issue .destroy (live .disabled)).Inv ∧ (live .disabled).devState = .live ∧
    (∃ t, exec .destroy (issue .destroy (live .disabled)) = .next t ∧ t.devState = .destroyed) ∧
    wireOpen (live .disabled).wire = some false ∧ (field (0x00098003#32 : SymWord) 0 15).toNat = 3 ∧
    (field (0x00098003#32 : SymWord) 16 15).toNat = 9 ∧ 1 ≤ 3 ∧ 3 ≤ 3 + 9 ∧ 12 ≤ 3 + 9 :=
  ⟨resetOn_inv, by decide, ⟨_, rfl, rfl⟩, issue_inv _, rfl, ⟨_, rfl, rfl⟩, by decide, by decide, by decide, by decide,
    by decide, by decide⟩

/-- After power-on and after DESTROY. -/
theorem witness_CreateInitialises :
    (State.resetOn plat).devState ≠ .live ∧ destroyed.devState ≠ .live ∧ (1#16 : Half) ≠ 0#16 ∧
    plat.validPins.has 5 = true ∧ plat.boundPins.has 5 = false ∧ field (CfgRegs.reset plat).flags 2 2 = 0#2 ∧
    (CfgRegs.reset plat).memBlockSymbols ≠ 0#16 ∧ (CfgRegs.reset plat).queueDepth ≠ 0#8 ∧
    plat.clkSrcValues.has (CfgRegs.reset plat).clkSrc.toNat = true ∧
    (durations (CfgRegs.reset plat)).all durationOk = true ∧ (State.resetOn plat).allocFails.1 = false ∧
    destroyed.allocFails.1 = false := by decide

/-- Each DEV_STATE, and the indices 1 and 2 on either side of the LED count. -/
theorem witness_SetPixelResult :
    (State.resetOn plat).devState = .none ∧ destroyed.devState = .destroyed ∧ (live .disabled).devState = .live ∧
    (live .disabled).dev.numLeds.toNat ≤ (2#16 : Half).toNat ∧ (1#16 : Half).toNat < (live .disabled).dev.numLeds.toNat := by
  decide

theorem witness_SetAllPixelsResult :
    (State.resetOn plat).hostSub = .start ∧ (State.resetOn plat).devState = .none ∧ destroyed.hostSub = .start ∧
    destroyed.devState = .destroyed ∧ (live .disabled).hostSub = .start ∧ (live .disabled).devState = .live ∧
    { live .disabled with hostSub := .enable }.hostSub ≠ .start := by decide

/-- Each DEV_STATE, and the colours 5 and 6 on either side of the palette's end. -/
theorem witness_SetColourResult :
    (State.resetOn plat).hostSub = .start ∧ (State.resetOn plat).devState = .none ∧ destroyed.hostSub = .start ∧
    destroyed.devState = .destroyed ∧ (live .disabled).hostSub = .start ∧ (live .disabled).devState = .live ∧
    (5#8 : Byte).toNat < 6 ∧ 6 ≤ (6#8 : Byte).toNat ∧
    { live .disabled with hostSub := .transmit }.hostSub ≠ .start := by decide

theorem witness_ClearResult :
    (State.resetOn plat).hostSub = .start ∧ (State.resetOn plat).devState = .none ∧ destroyed.hostSub = .start ∧
    destroyed.devState = .destroyed ∧ (live .disabled).hostSub = .start ∧ (live .disabled).devState = .live ∧
    { live .disabled with hostSub := .wait }.hostSub ≠ .start := by decide

/-- Each sub-step, and a driver failure drawn at sub-step E and at sub-step D. -/
theorem witness_RefreshStepResults :
    let bad := { plat with driverMayFail := true }
    (live .disabled).driverFails.1 = false ∧ (live .disabled).devState = .live ∧ (live .disabled).hostSub = .start ∧
    (live .enabled).driverFails.1 = false ∧ { live .enabled with hostSub := .disable }.dev.chState = .enabled ∧
    { live .transmitting with hostSub := .wait }.hostHeld = false ∧
    { live .transmitting with platform := bad, inputs := [1], hostSub := .wait }.driverFails.1 = true ∧
    { live .disabled with platform := bad, inputs := [1] }.driverFails.1 = true ∧
    { live .enabled with platform := bad, inputs := [1], hostSub := .disable }.driverFails.1 = true ∧
    (live .enabled).devState = .live ∧ (live .deleted).hostSub = .start := by decide

/-- A step that is not enabled, an operation with no device, and a block with room for 48 symbols asked for 49. -/
theorem witness_InternalOperationStops :
    (live .enabled).chunkEnabled = false ∧ (live .enabled).emitEnabled = false ∧ (live .enabled).doneEnabled = false ∧
    destroyed.devState ≠ .live ∧ (live .transmitting).devState = .live ∧
    (live .transmitting).dev.memBlock.toNat <
      (live .transmitting).dev.memblk.length + (encodeChunk 49 (live .transmitting)).pushed.length := by decide

theorem witness_RefreshSendsOneFrame :
    let s := issue .refresh (live .disabled)
    s.Inv ∧ s.devState = .live ∧ s.dev.chState = .disabled ∧ s.dev.atRest ∧ s.hostSub = .start ∧
    s.currentCommand = some .refresh ∧ s.hostStopped = false ∧ s.platform.driverMayFail = false :=
  ⟨issue_inv _, rfl, rfl, ⟨rfl, rfl, rfl⟩, rfl, by decide, by decide, rfl⟩

theorem witness_PaintSendsOneFrame :
    let s := issue (.setColour 4#8) (live .disabled)
    s.Inv ∧ s.devState = .live ∧ s.dev.chState = .disabled ∧ s.dev.atRest ∧ s.hostSub = .start ∧
    s.currentCommand = some (.setColour 4#8) ∧ multiStep (.setColour 4#8) = true ∧ Instr.setColour 4#8 ≠ .refresh ∧
    s.hostStopped = false ∧ s.platform.driverMayFail = false ∧
    ∃ u, exec (.setColour 4#8) s = .next u ∧ u.hostSub = .enable :=
  ⟨issue_inv _, rfl, rfl, ⟨rfl, rfl, rfl⟩, rfl, by decide, rfl, by decide, by decide, rfl, _, rfl, by decide⟩

end Sys2Proof.Tests
end

section
/-! SUPPORT. The family of 00_scope.md: the choice of the next turn (R16) and the command CREATE (R9, 43_strip_device.md
R113). -/

namespace Sys2Proof.Machine

/-! ## The choice of the next turn (00_scope.md R16, 20_memory.md R58) -/

/-- A turn is among the enabled ones exactly if it is enabled. -/
@[simp] theorem State.mem_enabledTurns {s : State} {u : Turn} : u ∈ s.enabledTurns ↔ s.turnEnabled u = true := by
  cases u <;> simp [State.enabledTurns]

/-- The only enabled turn is taken with no draw. -/
theorem State.pickTurn_of_single {s : State} {u : Turn} (h : s.enabledTurns = [u]) : s.pickTurn = some (u, s) := by
  simp only [State.pickTurn, h]

/-- Among several enabled turns, the next draw is the position of the one taken. -/
theorem State.pickTurn_of_several {s : State} {u : Turn} (h2 : 2 ≤ s.enabledTurns.length)
    (hd : s.enabledTurns[s.draw.1 % s.enabledTurns.length]? = some u) : s.pickTurn = some (u, s.draw.2) := by
  unfold State.pickTurn
  split
  next h => simp [h] at h2
  next h => simp [h] at h2
  next t v ts h =>
    rw [h] at hd
    rw [List.getD_eq_getElem?_getD, ← show (t :: v :: ts).length = ts.length + 2 from rfl, hd, Option.getD_some]

/-- A scripted turn that is enabled is picked, and its script is used up. -/
theorem State.pickTurn_scriptTurn {s : State} {u : Turn} (h : s.turnEnabled u = true) :
    (s.scriptTurn u).pickTurn = some (u, s) := by
  have hmem : u ∈ s.enabledTurns := State.mem_enabledTurns.mpr h
  unfold State.scriptTurn
  split
  next h2 =>
    have hpos : s.enabledTurns.idxOf u < s.enabledTurns.length := List.idxOf_lt_length_iff.mpr hmem
    refine State.pickTurn_of_several (u := u) h2 ?_
    show s.enabledTurns[s.enabledTurns.idxOf u % s.enabledTurns.length]? = some u
    rw [Nat.mod_eq_of_lt hpos, List.getElem?_eq_getElem hpos, List.getElem_idxOf]
  next h2 =>
    obtain ⟨v, hv⟩ : ∃ v, s.enabledTurns = [v] :=
      List.length_eq_one_iff.mp (by have := List.length_pos_of_mem hmem; omega)
    obtain rfl : u = v := by simpa [hv] using hmem
    exact State.pickTurn_of_single hv

/-- Scripting a turn changes the draws to come and nothing else. -/
theorem State.scriptTurn_frame (s : State) (u : Turn) : s.scriptTurn u = { s with inputs := (s.scriptTurn u).inputs } := by
  unfold State.scriptTurn
  split <;> rfl

/-- Settles O16: the draws that script the turn pick it, and are used up by that. -/
theorem scheduleIsFree : Obligations.ScheduleIsFree := by
  unfold Obligations.ScheduleIsFree
  intro s u h
  refine ⟨(s.scriptTurn u).inputs, s.inputs, ?_⟩
  rw [← State.scriptTurn_frame]
  exact State.pickTurn_scriptTurn h

/-! ## A write of CMD (10_state.md R21) -/

/-- The host at a write of CMD runs the instruction the word decodes to. -/
theorem hostTurn_of_command {s : State} {w : CmdWord} {i : Instr} (ha : s.currentAccess = some (.write .w64 0 w))
    (hw : decodeHost w = .instr i) : hostTurn s = exec i s := by
  simp [hostTurn, ha, runAccess, regAt, issueCommand, hw]

/-- The step is the picked turn on the state after the pick. -/
theorem step_of_pickTurn {s s' : State} {u : Turn} (h : s.pickTurn = some (u, s')) : step s = runTurn u s' := by
  simp [step, stepOnce, h]

/-- Choosing a turn leaves the host where it is. -/
theorem pickTurn_currentAccess {s s' : State} {u : Turn} (h : s.pickTurn = some (u, s')) :
    s'.currentAccess = s.currentAccess := by
  obtain ⟨-, rfl | rfl⟩ := pickTurn_cases h
  · rfl
  · simp [State.currentAccess]

/-- Settles O5: both clauses are the picked host's turn, the first with no draw taken. -/
theorem stepRunsDecodedCommand : Obligations.StepRunsDecodedCommand := by
  unfold Obligations.StepRunsDecodedCommand
  intro s w i ha hw
  have picked : ∀ s', s.pickTurn = some (.host, s') → step s = exec i s' := fun s' hp =>
    (step_of_pickTurn hp).trans (hostTurn_of_command ((pickTurn_currentAccess hp).trans ha) hw)
  exact ⟨fun h => picked s (State.pickTurn_of_single h), picked⟩

/-! ## CREATE (43_strip_device.md R113) -/

/-- CREATE's checks of its operands and of the device state, which come first in R113. -/
abbrev createArgsBad (n p : Half) (s : State) : Prop :=
  s.devState = .live ∨ n = 0#16 ∨ s.platform.validPins.has p.toNat = false ∨ s.platform.boundPins.has p.toNat = true

/-- CREATE's checks of the CFG registers, which R113 makes after the refusal of RGBW (R114). -/
abbrev createCfgBad (s : State) : Prop :=
  pixelFormat s.cfg = 2#2 ∨ pixelFormat s.cfg = 3#2 ∨ s.cfg.memBlockSymbols = 0#16 ∨ s.cfg.queueDepth = 0#8 ∨
    s.platform.clkSrcValues.has s.cfg.clkSrc.toNat = false ∨ ∃ d ∈ durations s.cfg, ¬ (1 ≤ d ∧ d ≤ 32767)

/-- The undefined pixel formats are 2 and 3 (10_state.md R38). -/
theorem two_le_pixelFormat_iff (f : BitVec 2) : 2#2 ≤ f ↔ f = 2#2 ∨ f = 3#2 := by
  revert f
  decide

/-- A symbol half holds durations of 1 to 32767 ticks (40_symbol_encoder.md R81). -/
theorem durationOk_iff (d : Nat) : durationOk d = true ↔ 1 ≤ d ∧ d ≤ 32767 := by
  rw [durationOk, Bool.and_eq_true, decide_eq_true_iff, decide_eq_true_iff]
  rfl

/-- CREATE rejects its durations exactly if one of them does not fit a symbol half. -/
theorem all_durationOk_eq_false_iff (ds : List Nat) :
    ds.all durationOk = false ↔ ∃ d ∈ ds, ¬ (1 ≤ d ∧ d ≤ 32767) := by
  simp only [List.all_eq_false, durationOk_iff]

/-- The checks of CREATE in three groups: the operands, the refusal of RGBW, the CFG registers. -/
theorem createCheck_eq (n p : Half) (s : State) :
    createCheck n p s =
      if createArgsBad n p s then .reject
      else if pixelFormat s.cfg = 1#2 then .refuseRgbw
      else if createCfgBad s then .reject
      else .accept := by
  simp only [createCheck, createArgsBad, createCfgBad, two_le_pixelFormat_iff, ← all_durationOk_eq_false_iff,
    Bool.not_eq_true', ite_or]

/-- CREATE's outcomes, in the order of its checks. -/
theorem exec_create (n p : Half) (s : State) :
    exec (.create n p) s = .next
      (if createArgsBad n p s then s.returnCode .invalidArgument
      else if pixelFormat s.cfg = 1#2 then s.refuse
      else if createCfgBad s then s.returnCode .invalidArgument
      else if s.allocFails.1 then s.allocFails.2.returnCode .outOfMemory
      else (s.allocFails.2.createDevice n p).returnCode .ok) := by
  show execCreate n p s = _
  rw [execCreate, createCheck_eq]
  split_ifs <;> rfl

/-- CREATE's commit as one update of the state after the drawn bytes. -/
theorem State.createDevice_eq (s : State) (n p : Half) :
    s.createDevice n p =
      { (s.drawBytes (3 * n.toNat)).2 with
        devState := .live
        dev := createdDevice n p s.cfg
        mem := Memory.writeBytes [] 0 (s.drawBytes (3 * n.toNat)).1
        pinMarks := s.pinMarks ++ [⟨s.wire.length, some ⟨p, s.cfg.flags.getLsbD 1, effRes s.cfg⟩⟩] } := by
  rw [← State.createDevice_pinMarks]
  rfl

/-- Two appended fields of zeros are one. -/
theorem append_zero4_zero2 {n : Nat} (x : BitVec n) : x ++ 0#4 ++ 0#2 = x ++ 0#6 := by
  apply BitVec.eq_of_toNat_eq
  simp [← Nat.shiftLeft_add]

/-- DEV_CONFIG with its six reserved bits as one field (10_state.md R34). -/
theorem devConfigWord_eq (c : CfgRegs) :
    devConfigWord c = 0#8 ++ c.clkSrc ++ c.queueDepth ++ 0#6 ++ field c.flags 0 2 :=
  congrArg (fun w : BitVec 30 => w ++ field c.flags 0 2) (append_zero4_zero2 (0#8 ++ c.clkSrc ++ c.queueDepth))

/-- Settles O51: the checks in R113's order, then the commit on the state after the allocation draw, which keeps the CFG
registers, the wire and the pin's record. -/
theorem createResult : Obligations.CreateResult := by
  unfold Obligations.CreateResult
  refine ⟨by decide, fun n p s => ?_⟩
  rw [exec_create, State.createDevice_eq, createdDevice, devConfigWord_eq]
  simp only [State.returnCode, State.drawBytes_hostPos, State.allocFails_hostPos, State.allocFails_cfg,
    State.allocFails_pinMarks, State.allocFails_wire]
  rfl

end Sys2Proof.Machine
end

section
/-! SUPPORT. The family of 10_state.md: what one machine step does to the block (the device, its pixel buffer and the
wire), and what that says about all steps. -/

namespace Sys2Proof.Machine

/-! ## What a step does to the block

A step mixes three things: draws, the host's own position and results, and the block. `BlockStep` says what happens to
the block alone, for both agents, so that a fact about the block is one case analysis. -/

/-- `u` is `s` after some draws. -/
def State.Drawn (s u : State) : Prop := ∃ i d, u = { s with inputs := i, drawCount := d }

theorem State.Drawn.refl (s : State) : s.Drawn s := ⟨_, _, rfl⟩

theorem State.Drawn.trans {s u v : State} (h : s.Drawn u) (h' : u.Drawn v) : s.Drawn v := by
  obtain ⟨i, d, rfl⟩ := h
  obtain ⟨i', d', rfl⟩ := h'
  exact ⟨i', d', rfl⟩

theorem State.drawn_draw (s : State) : s.Drawn s.draw.2 := ⟨_, _, draw_frame s⟩

theorem State.drawn_driverFails (s : State) : s.Drawn s.driverFails.2 := by
  unfold State.driverFails
  split
  · exact s.drawn_draw
  · exact .refl s

theorem State.drawn_allocFails (s : State) : s.Drawn s.allocFails.2 := by
  unfold State.allocFails
  split
  · exact s.drawn_draw
  · exact .refl s

theorem State.drawn_chunkBudget (s : State) : s.Drawn s.chunkBudget.2 := by
  unfold State.chunkBudget
  split
  · exact .refl s
  · exact s.drawn_draw

/-- `s` and `t` agree on the block: the device, its pixel buffer, the wire and the pin's record. -/
structure SameBlock (s t : State) : Prop where
  devState : t.devState = s.devState
  dev : t.dev = s.dev
  mem : t.mem = s.mem
  wire : t.wire = s.wire
  pinMarks : t.pinMarks = s.pinMarks

/-- A transaction begins or ends: the memory block is empty, ENC_DONE is clear, CH_STATE is `c`, and the wire shows `e`
(42_transmit_channel.md R98, R100, R104). -/
def State.frameBoundary (s : State) (c : ChState) (e : WireEvent) : State :=
  { s with dev := { s.dev with memblk := [], encDone := false, chState := c }, wire := s.wire ++ [e] }

section
variable (s : State) (c : ChState) (e : WireEvent)

@[simp] theorem State.frameBoundary_devState : (s.frameBoundary c e).devState = s.devState := rfl
@[simp] theorem State.frameBoundary_dev :
    (s.frameBoundary c e).dev = { s.dev with memblk := [], encDone := false, chState := c } := rfl
@[simp] theorem State.frameBoundary_mem : (s.frameBoundary c e).mem = s.mem := rfl
@[simp] theorem State.frameBoundary_wire : (s.frameBoundary c e).wire = s.wire ++ [e] := rfl
@[simp] theorem State.frameBoundary_pinMarks : (s.frameBoundary c e).pinMarks = s.pinMarks := rfl

end

/-- CH_TRANSMIT's commit begins a transaction (42_transmit_channel.md R98). -/
theorem State.startFrame_eq (s : State) : s.startFrame = s.frameBoundary .transmitting .frameStart := by
  simp only [State.startFrame, State.setMemblk, State.setEncDone, State.emit, State.setChState, State.frameBoundary]

/-- CH_DISABLE aborts a transaction in flight (42_transmit_channel.md R100). -/
theorem State.abortFrame_disabled {s : State} (h : s.dev.chState = .transmitting) :
    s.abortFrame.setChState .disabled = s.frameBoundary .disabled .abort := by
  rw [State.abortFrame_of_transmitting h]
  simp only [State.setMemblk, State.setEncDone, State.emit, State.setChState, State.frameBoundary]

/-- ENG_DONE ends a transaction whose memory block is empty (42_transmit_channel.md R104). -/
theorem runDone_eq {s : State} (h : s.dev.memblk = []) : runDone s = s.frameBoundary .enabled .frameEnd := by
  rw [State.frameBoundary, ← h]
  rfl

/-- Draws leave the block alone. -/
theorem State.Drawn.sameBlock {s u : State} (h : s.Drawn u) : SameBlock s u := by
  obtain ⟨i, d, rfl⟩ := h
  exact ⟨rfl, rfl, rfl, rfl, rfl⟩

/-- A transaction is in flight exactly if the device is LIVE and its channel TRANSMITTING (10_state.md R30). -/
theorem State.transmitting_iff {s : State} :
    s.transmitting = true ↔ s.devState = .live ∧ s.dev.chState = .transmitting := by
  simp [State.transmitting]

/-- ENG_CHUNK is enabled in a transaction not yet encoded whose memory block has room (42_transmit_channel.md R102). -/
theorem State.chunkEnabled_iff {s : State} :
    s.chunkEnabled = true ↔ s.transmitting = true ∧ s.dev.encDone = false ∧ s.roomForChunk = true := by
  simp [State.chunkEnabled, and_assoc]

/-- Everything a step can do to the block. -/
inductive BlockStep (s : State) : State → Prop
  | idle : BlockStep s s
  | pixels (a : Nat) (vs : List Byte) (hl : s.devState = .live) (hv : a + vs.length ≤ s.dev.bufferLen) :
      BlockStep s (s.writePixels a vs)
  | encReset (hl : s.devState = .live) (hc : s.dev.chState ≠ .transmitting) :
      BlockStep s (((s.setBytesCursor 0).setCopyCursor 0).setEncState .sendPixels)
  /-- CH_ENABLE, CH_DISABLE and CH_DELETE with no transaction in flight. -/
  | channel (c : ChState) (hl : s.devState = .live) (he : channelEdge s.dev.chState c = true)
      (hs : s.dev.chState ≠ .transmitting) (hc : c ≠ .transmitting) : BlockStep s (s.setChState c)
  | start (hl : s.devState = .live) (hc : s.dev.chState = .enabled) :
      BlockStep s (s.frameBoundary .transmitting .frameStart)
  | abort (hl : s.devState = .live) (hc : s.dev.chState = .transmitting) :
      BlockStep s (s.frameBoundary .disabled .abort)
  | chunk (f : Nat) (hf : f ≤ s.dev.freeSlots) (he : s.chunkEnabled = true) : BlockStep s (runChunk f s)
  | emit (w : SymWord) (rest : List SymWord) (ht : s.transmitting = true) (hb : s.dev.memblk = w :: rest) :
      BlockStep s ((s.setMemblk rest).emit (.sym w))
  | done (ht : s.transmitting = true) : BlockStep s (s.frameBoundary .enabled .frameEnd)
  | create (n p : Half) (hc : createCheck n p s = .accept) : BlockStep s (s.createDevice n p)
  | release (hl : s.devState = .live) (hc : s.dev.chState = .deleted ∨ s.dev.chState = .disabled) :
      BlockStep s s.releaseDevice

/-- `t` is what a step on the block makes of `s`, draws and the host's own state apart. -/
def BlockNext (s t : State) : Prop := ∃ u v, s.Drawn u ∧ BlockStep u v ∧ SameBlock v t

theorem BlockNext.of_drawn {s u t : State} (h : s.Drawn u) (ht : BlockNext u t) : BlockNext s t := by
  obtain ⟨w, v, hw, hs, hb⟩ := ht
  exact ⟨w, v, h.trans hw, hs, hb⟩

theorem BlockNext.of_step {s u v t : State} (h : s.Drawn u) (hs : BlockStep u v) (hb : SameBlock v t) : BlockNext s t :=
  ⟨u, v, h, hs, hb⟩

/-- A step that only draws or moves the host. -/
theorem BlockNext.of_same {s t : State} (hb : SameBlock s t) : BlockNext s t := ⟨s, s, .refl s, .idle, hb⟩

/-- CREATE makes a device only where none is LIVE (43_strip_device.md R113). -/
theorem createCheck_not_live {n p : Half} {s : State} (h : createCheck n p s = .accept) : s.devState ≠ .live :=
  fun hl => by simp [createCheck, hl] at h

/-- CREATE's checks read no draw. -/
theorem createCheck_allocFails (n p : Half) (s : State) : createCheck n p s.allocFails.2 = createCheck n p s := by
  simp only [createCheck, State.allocFails_devState, State.allocFails_platform, State.allocFails_cfg]

/-- What a host command does to the block. -/
theorem HostStep.blockNext {i : Instr} {s t : State} (h : HostStep i s t) : BlockNext s t := by
  have driver := s.drawn_driverFails
  have channel : ∀ c, s.devState = .live → channelEdge s.dev.chState c = true → s.dev.chState ≠ .transmitting →
      c ≠ .transmitting → BlockStep s.driverFails.2 (s.driverFails.2.setChState c) := fun c hl he hs hc =>
    .channel c (by simpa using hl) (by simpa using he) (by simpa using hs) hc
  cases h with
  | result | dangling | refuse | hold | stay | lift | subWait => exact .of_same ⟨rfl, rfl, rfl, rfl, rfl⟩
  | driverError => exact .of_step driver .idle ⟨rfl, rfl, rfl, rfl, rfl⟩
  | allocError => exact .of_step s.drawn_allocFails .idle ⟨rfl, rfl, rfl, rfl, rfl⟩
  | enable hl hc | subEnable _ _ hl hc =>
    exact .of_step driver (channel .enabled hl (by rw [hc]; rfl) (by simp [hc]) (by simp)) ⟨rfl, rfl, rfl, rfl, rfl⟩
  | transmit hl hc | subTransmit _ _ hl hc =>
    rw [State.startFrame_eq]
    exact .of_step driver (.start (by simpa using hl) (by simpa using hc)) ⟨rfl, rfl, rfl, rfl, rfl⟩
  | disable hl hc =>
    rcases hc with hc | hc
    · rw [State.abortFrame_of_idle (by simp [hc])]
      exact .of_step driver (channel .disabled hl (by rw [hc]; rfl) (by simp [hc]) (by simp)) ⟨rfl, rfl, rfl, rfl, rfl⟩
    · rw [State.abortFrame_disabled (by simpa using hc)]
      exact .of_step driver (.abort (by simpa using hl) (by simpa using hc)) ⟨rfl, rfl, rfl, rfl, rfl⟩
  | delete hl hc =>
    exact .of_step driver (channel .deleted hl (by rw [hc]; rfl) (by simp [hc]) (by simp)) ⟨rfl, rfl, rfl, rfl, rfl⟩
  | encReset hl hc => exact .of_step (.refl s) (.encReset hl hc) ⟨rfl, rfl, rfl, rfl, rfl⟩
  | setPixel n r g b _ hl hn =>
    have hn := BitVec.lt_def.mp hn
    exact .of_step (.refl s)
      (.pixels (3 * n.toNat) (pixelBytes r g b) hl (by simp only [pixelBytes, Device.bufferLen, List.length]; omega))
      ⟨rfl, rfl, rfl, rfl, rfl⟩
  | paint vs _ _ hl hv => exact .of_step (.refl s) (.pixels 0 vs hl (by omega)) ⟨rfl, rfl, rfl, rfl, rfl⟩
  | create n p _ hc =>
    exact .of_step s.drawn_allocFails (.create n p ((createCheck_allocFails n p s).trans hc)) ⟨rfl, rfl, rfl, rfl, rfl⟩
  | destroy _ hl hc => exact .of_step (.refl s) (.release hl (.inl hc)) ⟨rfl, rfl, rfl, rfl, rfl⟩
  | destroyDrawn _ hl hc =>
    exact .of_step driver (.release (by simpa using hl) (.inr (by simpa using hc))) ⟨rfl, rfl, rfl, rfl, rfl⟩

/-- What a host turn does to the block. -/
theorem AccessStep.blockNext {s t : State} (h : AccessStep s t) : BlockNext s t := by
  cases h with
  | refuse | read | readDangling | writeCfg | illegal => exact .of_same ⟨rfl, rfl, rfl, rfl, rfl⟩
  | command w i _ _ hs => exact hs.blockNext

/-- An enabled chunk's budget fits the free slots (42_transmit_channel.md R102). -/
theorem chunkBudget_le_freeSlots {s : State} (h : s.chunkEnabled = true) : s.chunkBudget.1 ≤ s.dev.freeSlots := by
  obtain ⟨-, -, hroom⟩ := State.chunkEnabled_iff.mp h
  simp only [State.roomForChunk, Bool.and_eq_true, Bool.or_eq_true, List.isEmpty_iff, decide_eq_true_eq,
    beq_iff_eq] at hroom
  unfold State.chunkBudget Device.freeSlots
  split
  next hp =>
    obtain ⟨hb, -⟩ | ⟨hf, -⟩ := hroom
    · simp [hb]
    · simp [hp] at hf
  next hp =>
    refine (State.drawBudget_bounds s _ ?_).2
    obtain ⟨hb, hk⟩ | ⟨-, hk⟩ := hroom
    · simp only [hb, List.length_nil]
      simpa [hp, Nat.one_le_iff_ne_zero, Nat.pos_iff_ne_zero] using hk
    · omega

/-- What an engine step does to the block. -/
theorem EngineStep.blockNext {s t : State} (h : EngineStep s t) : BlockNext s t := by
  cases h with
  | chunk he =>
    have hf := chunkBudget_le_freeSlots he
    obtain ⟨i, d, hd⟩ := s.drawn_chunkBudget
    rw [hd]
    exact .of_step ⟨i, d, rfl⟩ (.chunk _ hf he) ⟨rfl, rfl, rfl, rfl, rfl⟩
  | emit w rest ht hb => exact .of_step (.refl s) (.emit w rest ht hb) ⟨rfl, rfl, rfl, rfl, rfl⟩
  | done ht _ hb =>
    rw [runDone_eq hb]
    exact .of_step (.refl s) (.done ht) ⟨rfl, rfl, rfl, rfl, rfl⟩

/-- A machine step is a host turn or an engine step, after the draw that picked it. -/
theorem step_turn {s t : State} (h : step s = .next t) :
    ∃ u, s.Drawn u ∧ (s.hostEnabled = true ∧ hostTurn u = .next t ∨ EngineStep u t) := by
  obtain ⟨v, u, he, hs, hr⟩ := step_cases h
  refine ⟨u, ?_, ?_⟩
  · rcases hs with rfl | rfl
    · exact .refl _
    · exact s.drawn_draw
  · by_cases hv : v = .host
    · subst hv
      exact .inl ⟨he, hr⟩
    · exact .inr (engineTurn_cases hv hr)

/-- What a machine step does to the block. -/
theorem step_blockNext {s t : State} (h : step s = .next t) : BlockNext s t := by
  obtain ⟨u, hu, ⟨-, hr⟩ | he⟩ := step_turn h
  · exact .of_drawn hu (hostTurn_cases hr).blockNext
  · exact .of_drawn hu he.blockNext

/-- A fact about the block that every step on the block keeps, every machine step keeps. -/
theorem step_keeps {P : State → Prop} (same : ∀ ⦃s t : State⦄, SameBlock s t → P s → P t)
    (block : ∀ ⦃s t : State⦄, BlockStep s t → P s → P t) {s t : State} (h : step s = .next t) (hs : P s) : P t := by
  obtain ⟨u, v, hu, hv, ht⟩ := step_blockNext h
  exact same ht (block hv (same hu.sameBlock hs))

end Sys2Proof.Machine
end

section
/-! SUPPORT. What every step keeps of the block: the brackets of the wire and the life cycle of the device. -/

namespace Sys2Proof.Machine

/-! ## The wire (10_state.md R45, 42_transmit_channel.md R106) -/

theorem SameBlock.transmitting {s t : State} (h : SameBlock s t) : t.transmitting = s.transmitting := by
  rw [State.transmitting, h.devState, h.dev, State.transmitting]

/-- No transaction is in flight without a LIVE device, or on another channel state. -/
theorem State.transmitting_eq_false {s : State} (h : s.devState ≠ .live ∨ s.dev.chState ≠ .transmitting) :
    s.transmitting = false :=
  Bool.eq_false_iff.mpr fun ht => by
    obtain ⟨hl, hc⟩ := State.transmitting_iff.mp ht
    simp [hl, hc] at h

/-- A chunk changes the encoder, ENC_DONE and the memory block. -/
theorem runChunk_dev_frame (f : Nat) (s : State) :
    ∃ e n c k b, runChunk f s =
      { s with dev := { s.dev with encState := e, encDone := n, bytesCursor := c, copyCursor := k, memblk := b } } := by
  obtain ⟨e, c, k, b, h⟩ := encodeChunk_frame f s
  unfold runChunk
  split <;> rw [h] <;> exact ⟨e, _, c, k, b, rfl⟩

/-- One more event of the wire. -/
theorem wireOpen_append (wire : List WireEvent) (e : WireEvent) (opened : Bool) (h : wireOpen wire = some opened) :
    wireOpen (wire ++ [e]) = wireNext opened e := by
  have h : wire.foldlM wireNext false = some opened := h
  simp [wireOpen, List.foldlM_append, h]

/-- The wire history is well bracketed, with a transaction open exactly while one is in flight. -/
def State.Bracketed (s : State) : Prop := wireOpen s.wire = some s.transmitting

theorem SameBlock.bracketed {s t : State} (h : SameBlock s t) (hs : s.Bracketed) : t.Bracketed := by
  rw [State.Bracketed, h.wire, h.transmitting]
  exact hs

/-- A step that leaves the wire and the transaction as they are. -/
theorem State.Bracketed.of_same_wire {s t : State} (h : s.Bracketed) (hw : t.wire = s.wire)
    (ht : t.transmitting = s.transmitting) : t.Bracketed := by
  rw [State.Bracketed, hw, ht]
  exact h

/-- A step outside a transaction that leaves the wire as it is and begins none. -/
theorem State.Bracketed.of_idle {s t : State} (h : s.Bracketed) (hw : t.wire = s.wire)
    (hs : s.devState ≠ .live ∨ s.dev.chState ≠ .transmitting)
    (ht : t.devState ≠ .live ∨ t.dev.chState ≠ .transmitting) : t.Bracketed :=
  h.of_same_wire hw ((State.transmitting_eq_false ht).trans (State.transmitting_eq_false hs).symm)

/-- A step that appends one event. -/
theorem State.Bracketed.of_event {s t : State} {e : WireEvent} (h : s.Bracketed) (hw : t.wire = s.wire ++ [e])
    (he : wireNext s.transmitting e = some t.transmitting) : t.Bracketed := by
  rw [State.Bracketed, hw, wireOpen_append _ e _ h, he]

theorem BlockStep.bracketed {s t : State} (h : BlockStep s t) (hs : s.Bracketed) : t.Bracketed := by
  cases h with
  | idle => exact hs
  | pixels | encReset => exact hs.of_same_wire rfl rfl
  | channel c hl _ hsc hc => exact hs.of_idle rfl (.inr hsc) (.inr hc)
  | start hl hc => exact hs.of_event rfl (by simp [State.transmitting, hl, hc, wireNext])
  | abort hl hc => exact hs.of_event rfl (by simp [State.transmitting, hl, hc, wireNext])
  | chunk f _ _ =>
    obtain ⟨e, n, c, k, b, hf⟩ := runChunk_dev_frame f s
    rw [hf]
    exact hs.of_same_wire rfl rfl
  | emit w rest ht _ =>
    refine hs.of_event (e := .sym w) rfl ?_
    rw [ht]
    exact congrArg some ht.symm
  | done ht =>
    obtain ⟨hl, hc⟩ := State.transmitting_iff.mp ht
    exact hs.of_event rfl (by simp [State.transmitting, hl, hc, wireNext])
  | create n p hc =>
    exact hs.of_idle (by simp) (.inl (createCheck_not_live hc)) (.inr (by simp [createdDevice]))
  | release _ hc => exact hs.of_idle rfl (.inr (by rcases hc with hc | hc <;> simp [hc])) (.inl (by simp))

/-- Settles O10: a step on the block appends at most one event, and opens or closes the transaction just as the channel
enters or leaves TRANSMITTING. -/
theorem wireStaysBracketed : Obligations.WireStaysBracketed := by
  unfold Obligations.WireStaysBracketed
  exact ⟨fun p => rfl, fun s t hs h =>
    step_keeps (fun _ _ => SameBlock.bracketed) (fun _ _ => BlockStep.bracketed) h hs⟩

/-! ## The device's life cycle (10_state.md R29 to R34, 42_transmit_channel.md R94) -/

/-- `e` is `d` but for the channel, the encoder and the memory block: what CREATE latched is the same. -/
def Device.SameLatched (d e : Device) : Prop :=
  e = { e with
    symBit0 := d.symBit0, symBit1 := d.symBit1, symReset := d.symReset, numLeds := d.numLeds, pin := d.pin
    resolutionHz := d.resolutionHz, memBlock := d.memBlock, config := d.config }

/-- What one device keeps over a step, and which way its channel may go. -/
structure SameDevice (s t : State) : Prop where
  devState : t.devState = s.devState
  latched : s.dev.SameLatched t.dev
  channel : t.dev.chState = s.dev.chState ∨ channelEdge s.dev.chState t.dev.chState = true

/-- The same device, a new one, or the release of a LIVE one. -/
abbrev DeviceRule (s t : State) : Prop :=
  SameDevice s t ∨ (s.devState ≠ .live ∧ t.devState = .live ∧ t.dev.chState = .disabled) ∨
    (s.devState = .live ∧ t.devState = .destroyed)

theorem BlockStep.device {s t : State} (h : BlockStep s t) : DeviceRule s t := by
  cases h with
  | idle | pixels | encReset | emit => exact .inl ⟨rfl, rfl, .inl rfl⟩
  | channel c _ he => exact .inl ⟨rfl, rfl, .inr he⟩
  | start _ hc => exact .inl ⟨rfl, rfl, .inr (by rw [hc]; rfl)⟩
  | abort _ hc => exact .inl ⟨rfl, rfl, .inr (by rw [hc]; rfl)⟩
  | chunk f =>
    obtain ⟨e, n, c, k, b, hf⟩ := runChunk_dev_frame f s
    rw [hf]
    exact .inl ⟨rfl, rfl, .inl rfl⟩
  | done ht =>
    have hc := (State.transmitting_iff.mp ht).2
    exact .inl ⟨rfl, rfl, .inr (by rw [hc]; rfl)⟩
  | create n p hc =>
    exact .inr (.inl ⟨createCheck_not_live hc, by simp, by simp [createdDevice]⟩)
  | release hl => exact .inr (.inr ⟨hl, by simp⟩)

theorem step_device {s t : State} (h : step s = .next t) : DeviceRule s t := by
  obtain ⟨u, v, ⟨i, d, rfl⟩, hv, ht⟩ := step_blockNext h
  rcases hv.device with hd | ⟨hs, hl, hc⟩ | ⟨hl, hd⟩
  · exact .inl ⟨ht.devState.trans hd.devState, ht.dev ▸ hd.latched, ht.dev ▸ hd.channel⟩
  · exact .inr (.inl ⟨hs, ht.devState.trans hl, ht.dev ▸ hc⟩)
  · exact .inr (.inr ⟨hl, ht.devState.trans hd⟩)

/-- Settles O12: from LIVE to LIVE the device is the same one. -/
theorem latchedRegistersFixed : Obligations.LatchedRegistersFixed := by
  unfold Obligations.LatchedRegistersFixed
  intro s t h hs ht
  rcases step_device h with hd | ⟨hn, -⟩ | ⟨-, hn⟩
  · rw [hd.latched]
    exact ⟨rfl, rfl, rfl, rfl, rfl, rfl, rfl, rfl⟩
  · exact absurd hs hn
  · simp [ht] at hn

/-- Settles O13: one device moves its channel along an edge, a new one starts DISABLED, a released one is DESTROYED. -/
theorem lifecycleTransitions : Obligations.LifecycleTransitions := by
  unfold Obligations.LifecycleTransitions
  intro s t h
  rcases step_device h with hd | ⟨hn, hl, hc⟩ | ⟨hl, hn⟩
  · exact ⟨.inl hd.devState, fun _ _ => hd.channel, fun hs ht => absurd (hd.devState ▸ ht) hs⟩
  · exact ⟨.inr (.inl ⟨hn, hl⟩), fun hs => absurd hs hn, fun _ _ => hc⟩
  · exact ⟨.inr (.inr ⟨hl, hn⟩), fun _ ht => by simp [ht] at hn, fun hs => absurd hl hs⟩

end Sys2Proof.Machine
end

section
/-! SUPPORT. One call of Encode, case by case, and what chunks and emits conserve (41_strip_encoder_fsm.md R89, R93,
42_transmit_channel.md R102, R103). -/

namespace Sys2Proof.Machine

/-! ## One call of Encode (41_strip_encoder_fsm.md R88, R89) -/

/-- `s` after its encoder pushed `ws` and moved on to the state `e` and the byte cursor `c`. -/
def State.encodedTo (s : State) (e : EncState) (c : Nat) (ws : List SymWord) : State :=
  { s with dev := { s.dev with encState := e, bytesCursor := c, memblk := s.dev.memblk ++ ws } }

/-- Everything Encode can do with the budget `f`, by where the budget ends: the symbols pushed, the result, and the state
(41_strip_encoder_fsm.md R88, R89). -/
inductive EncodeCase (f : Nat) (s : State) : EncodeStep → Prop
  /-- The budget ends before the pixels do. -/
  | pixels (ws : List SymWord) (he : s.dev.encState = .sendPixels) (hf : s.dev.bytesCursor + f < s.dev.bitCount)
      (hw : ws = symsFrom s.dev s.mem s.dev.bytesCursor f) :
      EncodeCase f s ⟨ws, .memFull, s.encodedTo .sendPixels (s.dev.bytesCursor + f) ws⟩
  /-- The budget ends with the pixels: the reset symbol is left for the next call. -/
  | lastPixels (ws : List SymWord) (he : s.dev.encState = .sendPixels) (hf : s.dev.bytesCursor + f = s.dev.bitCount)
      (hw : ws = symsFrom s.dev s.mem s.dev.bytesCursor f) : EncodeCase f s ⟨ws, .memFull, s.encodedTo .sendReset 0 ws⟩
  /-- The budget covers the pixels left and the reset symbol. -/
  | frame (ws : List SymWord) (he : s.dev.encState = .sendPixels) (hf : s.dev.bitCount < s.dev.bytesCursor + f)
      (hw : ws = symsFrom s.dev s.mem s.dev.bytesCursor (s.dev.bitCount - s.dev.bytesCursor) ++ [s.dev.symReset]) :
      EncodeCase f s ⟨ws, .complete, s.encodedTo .sendPixels 0 ws⟩
  /-- No budget for the reset symbol. -/
  | noReset (he : s.dev.encState = .sendReset) (hf : f = 0) :
      EncodeCase f s ⟨[], .memFull, s.encodedTo .sendReset s.dev.bytesCursor []⟩
  /-- The reset symbol. -/
  | reset (he : s.dev.encState = .sendReset) (hf : 0 < f) :
      EncodeCase f s ⟨[s.dev.symReset], .complete, s.encodedTo .sendPixels s.dev.bytesCursor [s.dev.symReset]⟩

/-- A copy cursor of 0 set to 0. -/
theorem State.setCopyCursor_zero {s : State} (h : s.dev.copyCursor = 0) : s.setCopyCursor 0 = s := by
  rw [State.setCopyCursor, ← h]

@[simp] theorem State.pushSyms_nil (s : State) : s.pushSyms [] = s := by
  rw [State.pushSyms, List.append_nil]
  rfl

/-- An encoder that moves nowhere and pushes nothing. -/
theorem State.encodedTo_self (s : State) : s.encodedTo s.dev.encState s.dev.bytesCursor [] = s := by
  rw [State.encodedTo, List.append_nil]

/-- The encoder moved by the operations of the model. -/
theorem State.encodedTo_eq (s : State) (e : EncState) (c : Nat) (ws : List SymWord) :
    ((s.pushSyms ws).setBytesCursor c).setEncState e = s.encodedTo e c ws := rfl

/-- An encoder that pushes on and moves to another state. -/
theorem State.pushSyms_encodedTo (s : State) (e e' : EncState) (c : Nat) (ws vs : List SymWord) :
    ((s.encodedTo e c ws).pushSyms vs).setEncState e' = s.encodedTo e' c (ws ++ vs) := by
  rw [State.encodedTo, State.encodedTo, ← List.append_assoc]
  rfl

/-- The SEND_RESET part of Encode from a copy cursor of 0. -/
theorem encodeReset_eq (f : Nat) (before : List SymWord) (s : State) (hc : s.dev.copyCursor = 0) :
    encodeReset f before s =
      if f = 0 then ⟨before, .memFull, s⟩
      else ⟨before ++ [s.dev.symReset], .complete, (s.pushSyms [s.dev.symReset]).setEncState .sendPixels⟩ := by
  have same : (s.pushSyms [s.dev.symReset]).setCopyCursor 0 = s.pushSyms [s.dev.symReset] :=
    State.setCopyCursor_zero hc
  unfold encodeReset
  rw [copyEncode_spec f s hc]
  by_cases hf : f = 0 <;> simp [hf, same, State.setCopyCursor_zero hc]

/-- Everything Encode can do from a copy cursor of 0, where it always stands (10_state.md R27). -/
theorem encodeChunk_cases (f : Nat) {s : State} (hc : s.dev.copyCursor = 0)
    (hb : s.dev.bytesCursor ≤ s.dev.bitCount) : EncodeCase f s (encodeChunk f s) := by
  unfold encodeChunk
  split
  next he =>
    rw [encodeReset_eq f [] s hc]
    split
    next hf =>
      have := EncodeCase.noReset he hf
      rwa [← he, State.encodedTo_self] at this
    next hf => exact .reset he (by omega)
  next he =>
    generalize hbe : bytesEncode f s = b
    obtain ⟨hw, hr, hu⟩ := bytesEncode_spec f s
    rw [hbe] at hw hr hu
    obtain ⟨ws, r, u⟩ := b
    dsimp only at hw hr hu ⊢
    rcases Nat.lt_trichotomy (s.dev.bytesCursor + f) s.dev.bitCount with hf | hf | hf
    · rw [if_neg (by omega)] at hr hu
      rw [Nat.min_eq_left (by omega)] at hw
      subst hr hu
      have := EncodeCase.pixels ws he hf hw
      rw [← he] at this
      exact this
    · rw [if_pos (by omega)] at hr hu
      rw [Nat.min_eq_left (by omega)] at hw
      subst hr hu hw
      dsimp only
      rw [encodeReset_eq, if_pos (by simp)]
      · exact .lastPixels _ he hf rfl
      · exact hc
    · rw [if_pos (by omega)] at hr hu
      rw [Nat.min_eq_right (by omega)] at hw
      subst hr hu
      dsimp only
      rw [State.encodedTo_eq, encodeReset_eq _ _ (s.encodedTo .sendReset 0 ws) hc, if_neg (by simp [hw]; omega),
        State.pushSyms_encodedTo]
      exact .frame _ he hf (congrArg (· ++ [s.dev.symReset]) hw)

/-- What a chunk makes of the case its call of Encode was: ENC_DONE is set when the frame is encoded. -/
theorem runChunk_eq (f : Nat) (s : State) :
    runChunk f s =
      if (encodeChunk f s).result = .complete then (encodeChunk f s).state.setEncDone true
      else (encodeChunk f s).state := by
  unfold runChunk
  cases (encodeChunk f s).result <;> simp

/-! ## What a transaction owes (42_transmit_channel.md R103, R106) -/

/-- The bit symbols depend on the two symbol registers of the device alone. -/
theorem symsFrom_congr (d e : Device) (h0 : e.symBit0 = d.symBit0) (h1 : e.symBit1 = d.symBit1) (m : Memory)
    (c n : Nat) : symsFrom e m c n = symsFrom d m c n := by
  induction n generalizing c with
  | zero => rfl
  | succ n ih => rw [symsFrom, symsFrom, ih, symAt, symAt, bitSym, bitSym, h0, h1]

/-- Encoded to the end, a frame has nothing left to encode. -/
theorem State.unencoded_of_done {s : State} (h : s.dev.encDone = true) : s.unencoded = [] := by
  simp [State.unencoded, h]

theorem State.unencoded_of_sendReset {s : State} (hd : s.dev.encDone = false) (h : s.dev.encState = .sendReset) :
    s.unencoded = [s.dev.symReset] := by
  simp [State.unencoded, hd, h]

theorem State.unencoded_of_sendPixels {s : State} (hd : s.dev.encDone = false) (h : s.dev.encState = .sendPixels) :
    s.unencoded =
      symsFrom s.dev s.mem s.dev.bytesCursor (s.dev.bitCount - s.dev.bytesCursor) ++ [s.dev.symReset] := by
  simp [State.unencoded, hd, h]

/-- Owed by an encoder among the pixels: the block, the symbols pushed, the bits from the cursor on, and the reset
symbol. -/
theorem State.owed_encodedTo_sendPixels {s : State} (hd : s.dev.encDone = false) (c : Nat) (ws : List SymWord) :
    (s.encodedTo .sendPixels c ws).owed =
      s.dev.memblk ++ ws ++ (symsFrom s.dev s.mem c (s.dev.bitCount - c) ++ [s.dev.symReset]) := by
  rw [State.owed, State.unencoded_of_sendPixels (s := s.encodedTo .sendPixels c ws) hd rfl,
    symsFrom_congr s.dev (s.encodedTo .sendPixels c ws).dev rfl rfl]
  rfl

/-- Owed by an encoder that has only the reset symbol left. -/
theorem State.owed_encodedTo_sendReset {s : State} (hd : s.dev.encDone = false) (c : Nat) (ws : List SymWord) :
    (s.encodedTo .sendReset c ws).owed = s.dev.memblk ++ ws ++ [s.dev.symReset] := by
  rw [State.owed, State.unencoded_of_sendReset (s := s.encodedTo .sendReset c ws) hd rfl]
  rfl

/-- Owed once the frame is encoded: the block and the symbols pushed. -/
theorem State.owed_encodedTo_done (s : State) (e : EncState) (c : Nat) (ws : List SymWord) :
    ((s.encodedTo e c ws).setEncDone true).owed = s.dev.memblk ++ ws := by
  rw [State.owed, State.unencoded_of_done (s := (s.encodedTo e c ws).setEncDone true) rfl]
  exact List.append_nil _

/-- A chunk moves symbols into the memory block and owes the same. -/
theorem runChunk_owed (f : Nat) {s : State} (hd : s.dev.encDone = false) (hc : s.dev.copyCursor = 0)
    (hb : s.dev.bytesCursor ≤ s.dev.bitCount) : (runChunk f s).owed = s.owed := by
  have hcase := encodeChunk_cases f hc hb
  rw [runChunk_eq]
  generalize encodeChunk f s = r at hcase
  cases hcase with
  | pixels ws he hf hw =>
    have hsplit := symsFrom_add s.dev s.mem s.dev.bytesCursor f (s.dev.bitCount - (s.dev.bytesCursor + f))
    rw [show f + (s.dev.bitCount - (s.dev.bytesCursor + f)) = s.dev.bitCount - s.dev.bytesCursor by omega] at hsplit
    rw [if_neg (by simp), State.owed_encodedTo_sendPixels hd, State.owed,
      State.unencoded_of_sendPixels hd he, hsplit, hw]
    simp
  | lastPixels ws he hf hw =>
    rw [if_neg (by simp), State.owed_encodedTo_sendReset hd, State.owed, State.unencoded_of_sendPixels hd he, hw,
      show s.dev.bitCount - s.dev.bytesCursor = f by omega, List.append_assoc]
  | frame ws he hf hw =>
    rw [if_pos rfl, State.owed_encodedTo_done, State.owed, State.unencoded_of_sendPixels hd he, hw]
  | noReset he hf => rw [if_neg (by simp), ← he, State.encodedTo_self]
  | reset he hf => rw [if_pos rfl, State.owed_encodedTo_done, State.owed, State.unencoded_of_sendReset hd he]

/-- A Sym on the wire is one more symbol sent. -/
theorem sentSyms_append_sym (wire : List WireEvent) (w : SymWord) :
    sentSyms (wire ++ [.sym w]) = sentSyms wire ++ [w] := by
  simp [sentSyms]

/-- What is left to encode does not depend on what the memory block holds. -/
theorem State.unencoded_setMemblk (s : State) (b : List SymWord) : (s.setMemblk b).unencoded = s.unencoded := by
  have h : ∀ c n, symsFrom (s.setMemblk b).dev s.mem c n = symsFrom s.dev s.mem c n := fun c n =>
    symsFrom_congr s.dev (s.setMemblk b).dev rfl rfl s.mem c n
  unfold State.unencoded
  rw [State.setMemblk_mem]
  simp only [h]
  rfl

/-- Draws leave what a transaction owes as it is. -/
theorem State.Drawn.owed {s u : State} (h : s.Drawn u) : u.owed = s.owed := by
  obtain ⟨i, d, rfl⟩ := h
  rfl

/-- An emit moves the head of the memory block onto the wire: sent and owed together are the same list. -/
theorem sent_owed_emit {s : State} {w : SymWord} {rest : List SymWord} (hb : s.dev.memblk = w :: rest) :
    sentSyms ((s.setMemblk rest).emit (.sym w)).wire ++ ((s.setMemblk rest).emit (.sym w)).owed =
      sentSyms s.wire ++ s.owed := by
  have howed : ((s.setMemblk rest).emit (.sym w)).owed = rest ++ s.unencoded :=
    congrArg (rest ++ ·) (s.unencoded_setMemblk rest)
  rw [howed, State.owed, hb, State.emit_wire, State.setMemblk_wire, sentSyms_append_sym]
  simp

/-- Settles O44: the engine's two steps inside a transaction, a chunk with its budget's draw and an emit. -/
theorem engineConservesSymbols : Obligations.EngineConservesSymbols := by
  unfold Obligations.EngineConservesSymbols
  rintro u s t hinv (rfl | rfl) h
  · simp only [runTurn, exec, execEngChunk] at h
    split at h <;> cases h
    next he =>
    obtain ⟨ht, hd, -⟩ := State.chunkEnabled_iff.mp he
    have hdev := hinv.device (State.transmitting_iff.mp ht).1
    obtain ⟨e, n, c, k, b, i, j, hframe⟩ := runChunk_frame s
    refine ⟨?_, by rw [hframe]; exact ht⟩
    have hdrawn := s.drawn_chunkBudget
    have hwire : (runChunk s.chunkBudget.1 s.chunkBudget.2).wire = s.wire := by rw [hframe]
    rw [hwire, ← hdrawn.owed, runChunk_owed]
    all_goals rw [hdrawn.sameBlock.dev]
    exacts [hd, hdev.copy, hdev.cursor.le]
  · simp only [runTurn, exec, execEngEmit] at h
    split at h <;> cases h
    next he =>
    simp only [State.emitEnabled, Bool.and_eq_true, Bool.not_eq_true', List.isEmpty_eq_false_iff] at he
    obtain ⟨ht, hne⟩ := he
    obtain ⟨w, rest, hb⟩ := List.exists_cons_of_ne_nil hne
    simp only [runEmit, hb]
    exact ⟨sent_owed_emit hb, ht⟩

end Sys2Proof.Machine
end

section
/-! SUPPORT. The invariant of a device: CREATE establishes it, and every step on the block keeps it (10_state.md R25 to
R34, R44). -/

namespace Sys2Proof.Machine

/-! ## A new device (43_strip_device.md R113) -/

theorem symDuration0_mkSym (a b : Bool) (m n : Nat) (h : m ≤ maxDurationTicks) : symDuration0 (mkSym a m b n) = m := by
  have : m < 2 ^ 15 := Nat.lt_succ_of_le h
  rw [symDuration0, field, mkSym, BitVec.extractLsb'_append_eq_right, BitVec.toNat_ofNat, Nat.mod_eq_of_lt this]

theorem symDuration1_mkSym (a b : Bool) (m n : Nat) (h : n ≤ maxDurationTicks) : symDuration1 (mkSym a m b n) = n := by
  have : n < 2 ^ 15 := Nat.lt_succ_of_le h
  rw [symDuration1, field, mkSym, BitVec.extractLsb'_append_eq_of_le (by decide),
    BitVec.extractLsb'_append_eq_of_le (by decide), BitVec.extractLsb'_append_eq_right, BitVec.toNat_ofNat,
    Nat.mod_eq_of_lt this]

/-- A symbol of two durations in range is in range (40_symbol_encoder.md R81). -/
theorem symOk_mkSym {m n : Nat} (a b : Bool) (hm : durationOk m = true) (hn : durationOk n = true) :
    symOk (mkSym a m b n) = true := by
  rw [symOk, symDuration0_mkSym a b m n ((durationOk_iff m).mp hm).2,
    symDuration1_mkSym a b m n ((durationOk_iff n).mp hn).2, hm, hn]
  rfl

/-- The reserved fields and PIXEL_FORMAT of DEV_CONFIG are 0 (10_state.md R34). -/
theorem devConfigWord_reserved (c : CfgRegs) : devConfigWord c &&& 0xFF0000FC#32 = 0#32 := by
  have h : ∀ (src depth : Byte) (flags : BitVec 2),
      (0#8 ++ src ++ depth ++ 0#4 ++ 0#2 ++ flags) &&& (0xFF#8 ++ 0#8 ++ 0#8 ++ 0xF#4 ++ 3#2 ++ 0#2) =
        0#(8 + 8 + 8 + 4 + 2 + 2) := by
    intro src depth flags
    simp only [BitVec.and_append, BitVec.zero_and, BitVec.and_zero]
    rfl
  exact h c.clkSrc c.queueDepth (field c.flags 0 2)

/-- DEV_CONFIG[15:8] is the queue depth (10_state.md R34). -/
theorem devConfigWord_queueDepth (c : CfgRegs) : field (devConfigWord c) 8 8 = c.queueDepth := by
  rw [field, devConfigWord_eq, BitVec.extractLsb'_append_eq_of_le (by decide),
    BitVec.extractLsb'_append_eq_of_le (by decide), BitVec.extractLsb'_append_eq_right]

/-- The effective resolution is never 0 (43_strip_device.md R111). -/
theorem effRes_ne_zero (c : CfgRegs) : effRes c ≠ 0#32 := by
  unfold effRes
  split
  · decide
  · assumption

/-- What CREATE accepts has the operands and the CFG registers a device needs. -/
theorem createCheck_accept {n p : Half} {s : State} (h : createCheck n p s = .accept) :
    ¬ createArgsBad n p s ∧ ¬ createCfgBad s := by
  rw [createCheck_eq] at h
  split_ifs at h with ha _ hc
  exact ⟨ha, hc⟩

/-- The device CREATE makes meets the device invariant. -/
theorem createdDevice_inv {n p : Half} {s : State} (h : createCheck n p s = .accept) :
    (createdDevice n p s.cfg).Inv := by
  obtain ⟨hargs, hcfg⟩ := createCheck_accept h
  simp only [createArgsBad, createCfgBad, not_or, ← all_durationOk_eq_false_iff, Bool.not_eq_false,
    durations, List.all_cons, List.all_nil, Bool.and_true, Bool.and_eq_true] at hargs hcfg
  obtain ⟨-, hn, -⟩ := hargs
  obtain ⟨-, -, hk, hq, -, ht0h, ht0l, ht1h, ht1l, hres⟩ := hcfg
  have hpos : 0 < n.toNat := Nat.pos_of_ne_zero fun h0 => hn (BitVec.eq_of_toNat_eq (by simpa using h0))
  exact {
    leds := hn
    capacity := hk
    count := Nat.zero_le _
    cursor := by simp only [createdDevice, Device.bitCount, Device.bufferLen]; omega
    copy := rfl
    reset := fun _ => rfl
    done := fun h => absurd h Bool.false_ne_true
    idle := fun _ => rfl
    bit0 := symOk_mkSym _ _ ht0h ht0l
    bit1 := symOk_mkSym _ _ ht1h ht1l
    resetSymbol := symOk_mkSym _ _ hres hres
    config := devConfigWord_reserved s.cfg
    queue := fun h => hq ((devConfigWord_queueDepth s.cfg).symm.trans h)
    resolution := effRes_ne_zero s.cfg }

/-! ## What a step makes of a LIVE device -/

variable {d : Device}

/-- Outside a transaction ENC_DONE is clear (10_state.md R28). -/
theorem Device.Inv.encDone_of_idle (h : d.Inv) (hc : d.chState ≠ .transmitting) : d.encDone = false :=
  Bool.eq_false_iff.mpr fun he => hc (h.done he).1

/-- The channel moves with no transaction in flight (42_transmit_channel.md R97, R100, R101). -/
theorem Device.Inv.channel (h : d.Inv) (hs : d.chState ≠ .transmitting) (c : ChState) :
    Device.Inv { d with chState := c } where
  __ := h
  done := fun he => absurd (h.encDone_of_idle hs) (by simp [show d.encDone = true from he])
  idle := fun _ => h.idle hs

/-- A transaction begins or ends: an empty memory block, ENC_DONE clear (42_transmit_channel.md R98, R100, R104). -/
theorem Device.Inv.emptied (h : d.Inv) (c : ChState) :
    Device.Inv { d with memblk := [], encDone := false, chState := c } where
  __ := h
  count := Nat.zero_le _
  done := fun he => absurd he Bool.false_ne_true
  idle := fun _ => rfl

/-- ENC_RESET with no transaction in flight (41_strip_encoder_fsm.md R92). -/
theorem Device.Inv.encReset (h : d.Inv) (hs : d.chState ≠ .transmitting) :
    Device.Inv { d with bytesCursor := 0, copyCursor := 0, encState := .sendPixels } where
  __ := h
  cursor := Nat.zero_lt_of_lt h.cursor
  copy := rfl
  reset := fun _ => rfl
  done := fun he => absurd (h.encDone_of_idle hs) (by simp [show d.encDone = true from he])

/-- The head of the memory block leaves it (42_transmit_channel.md R103). -/
theorem Device.Inv.emit (h : d.Inv) {w : SymWord} {rest : List SymWord} (hc : d.chState = .transmitting)
    (hb : d.memblk = w :: rest) : Device.Inv { d with memblk := rest } where
  __ := h
  count := by
    have := h.count
    rw [hb, List.length_cons] at this
    exact Nat.le_of_succ_le this
  idle := fun hn => absurd hc hn

/-- The encoder moves inside a transaction, within the block's free slots (41_strip_encoder_fsm.md R89). -/
theorem Device.Inv.encoded (h : d.Inv) (hc : d.chState = .transmitting) {e : EncState} {b : Bool} {c : Nat}
    {ws : List SymWord} (hw : ws.length ≤ d.freeSlots) (hcur : c < d.bitCount) (hr : e = .sendReset → c = 0)
    (hd : b = true → e = .sendPixels ∧ c = 0) :
    Device.Inv { d with encState := e, encDone := b, bytesCursor := c, memblk := d.memblk ++ ws } where
  __ := h
  count := by
    have := h.count
    unfold Device.freeSlots at hw
    simp only [List.length_append]
    omega
  cursor := hcur
  reset := hr
  done := fun hb => ⟨hc, hd hb⟩
  idle := fun hn => absurd hc hn

/-- A chunk keeps the device invariant (42_transmit_channel.md R102). -/
theorem runChunk_device {s : State} {f : Nat} (h : s.dev.Inv) (hf : f ≤ s.dev.freeSlots)
    (he : s.chunkEnabled = true) : (runChunk f s).dev.Inv := by
  obtain ⟨ht, hd, -⟩ := State.chunkEnabled_iff.mp he
  obtain ⟨-, hc⟩ := State.transmitting_iff.mp ht
  have hcase := encodeChunk_cases f h.copy h.cursor.le
  have hlt := h.cursor
  have hpos : 0 < s.dev.bitCount := Nat.zero_lt_of_lt hlt
  rw [runChunk_eq]
  generalize encodeChunk f s = r at hcase
  cases hcase with
  | pixels ws _ hnext hw =>
    exact h.encoded hc (by simpa [hw] using hf) hnext (fun h => nomatch h) (fun h => by simp [hd] at h)
  | lastPixels ws _ _ hw =>
    exact h.encoded hc (by simpa [hw] using hf) hpos (fun _ => rfl) (fun h => by simp [hd] at h)
  | frame ws _ hend hw =>
    exact h.encoded hc (by simp [hw]; omega) hpos (fun h => nomatch h) (fun _ => ⟨rfl, rfl⟩)
  | noReset hs =>
    exact h.encoded hc (Nat.zero_le _) hlt (fun _ => h.reset hs) (fun h => by simp [hd] at h)
  | reset hs hf0 =>
    exact h.encoded hc (by simp; omega) hlt (fun h => nomatch h) (fun _ => ⟨rfl, h.reset hs⟩)

end Sys2Proof.Machine
end

section
/-! SUPPORT. The machine invariant in three parts: the device and its pixel buffer, the pin's record, the host. The
first two concern the block alone and follow `BlockStep`; the third follows the host's turn. -/

namespace Sys2Proof.Machine

/-! ## The device and its pixel buffer (10_state.md R25 to R34, R43, R44) -/

/-- The part of the invariant about the device and the pixel buffer. -/
structure State.DevInv (s : State) : Prop where
  memWf : Memory.wf s.mem = true
  memBelow : Memory.below s.dev.bufferLen s.mem = true
  absent : s.devState ≠ .live → s.dev = Device.absent
  device : s.devState = .live → s.dev.Inv

/-- A step of a LIVE device that leaves its LED count and its pixel buffer. -/
theorem State.DevInv.of_device {s t : State} (h : s.DevInv) (ht : t.devState = .live) (hm : t.mem = s.mem)
    (hn : t.dev.numLeds = s.dev.numLeds) (hd : t.dev.Inv) : t.DevInv where
  memWf := by rw [hm]; exact h.memWf
  memBelow := by rw [hm, Device.bufferLen, hn]; exact h.memBelow
  absent := fun hne => absurd ht hne
  device := fun _ => hd

theorem BlockStep.devInv {s t : State} (h : BlockStep s t) (hs : s.DevInv) : t.DevInv := by
  cases h with
  | idle => exact hs
  | pixels a vs hl hv =>
    exact {
      memWf := Memory.wf_writeBytes _ _ _ hs.memWf
      memBelow := Memory.below_writeBytes _ _ _ hv hs.memBelow
      absent := hs.absent
      device := hs.device }
  | encReset hl hc => exact hs.of_device hl rfl rfl ((hs.device hl).encReset hc)
  | channel c hl _ hc => exact hs.of_device hl rfl rfl ((hs.device hl).channel hc c)
  | start hl => exact hs.of_device hl rfl rfl ((hs.device hl).emptied _)
  | abort hl => exact hs.of_device hl rfl rfl ((hs.device hl).emptied _)
  | chunk f hf he =>
    obtain ⟨ht, -⟩ := State.chunkEnabled_iff.mp he
    obtain ⟨hl, -⟩ := State.transmitting_iff.mp ht
    have hd := runChunk_device (hs.device hl) hf he
    obtain ⟨e, n, c, k, b, hframe⟩ := runChunk_dev_frame f s
    rw [hframe] at hd ⊢
    exact hs.of_device hl rfl rfl hd
  | emit w rest ht hb =>
    obtain ⟨hl, hc⟩ := State.transmitting_iff.mp ht
    exact hs.of_device hl rfl rfl ((hs.device hl).emit hc hb)
  | done ht =>
    obtain ⟨hl, -⟩ := State.transmitting_iff.mp ht
    exact hs.of_device hl rfl rfl ((hs.device hl).emptied _)
  | create n p hc =>
    exact {
      memWf := Memory.wf_writeBytes _ _ _ rfl
      memBelow := Memory.below_writeBytes _ _ _
        (by rw [State.drawBytes_length, State.createDevice_dev]; simp [createdDevice, Device.bufferLen]) rfl
      absent := fun hne => absurd (s.createDevice_devState n p) hne
      device := fun _ => by rw [State.createDevice_dev]; exact createdDevice_inv hc }
  | release =>
    exact { memWf := rfl, memBelow := rfl, absent := fun _ => rfl, device := fun hl => nomatch hl }

/-! ## The pin's record (42_transmit_channel.md R107, log 20) -/

/-- The part of the invariant about the drives recorded on the pin. -/
structure State.PinInv (s : State) : Prop where
  marks : marksWithin s.pinMarks s.wire.length = true
  drive : driveAfter none s.pinSteps = s.pinDrive

/-- Nothing new on the wire or on the pin. -/
theorem State.PinInv.of_same {s t : State} (h : s.PinInv) (hw : t.wire = s.wire) (hm : t.pinMarks = s.pinMarks)
    (hd : t.pinDrive = s.pinDrive) : t.PinInv where
  marks := by rw [hm, hw]; exact h.marks
  drive := by rw [State.pinSteps_congr hw hm, hd]; exact h.drive

/-- One event more on the wire. -/
theorem State.PinInv.of_event {s t : State} {e : WireEvent} (h : s.PinInv) (hw : t.wire = s.wire ++ [e])
    (hm : t.pinMarks = s.pinMarks) (hd : t.pinDrive = s.pinDrive) : t.PinInv where
  marks := by rw [hm, hw]; exact marksWithin_mono h.marks (by simp)
  drive := by rw [s.pinSteps_event t e h.marks hw hm, driveAfter_event, hd]; exact h.drive

/-- The drive of the pin is recorded at the wire's end. -/
theorem State.pinInv_markPin {s : State} (h : marksWithin s.pinMarks s.wire.length = true) : s.markPin.PinInv where
  marks := by
    rw [State.markPin_pinMarks, State.markPin_wire, marksWithin_append, h]
    simp [marksWithin]
  drive := by
    rw [s.pinSteps_mark s.markPin s.pinDrive rfl rfl, driveAfter_drive]
    rfl

theorem BlockStep.pinInv {s t : State} (h : BlockStep s t) (hs : s.PinInv) : t.PinInv := by
  cases h with
  | idle => exact hs
  | pixels | encReset | channel => exact hs.of_same rfl rfl rfl
  | start => exact hs.of_event (e := .frameStart) rfl rfl rfl
  | abort => exact hs.of_event (e := .abort) rfl rfl rfl
  | chunk f =>
    obtain ⟨e, n, c, k, b, hframe⟩ := runChunk_dev_frame f s
    rw [hframe]
    exact hs.of_same rfl rfl rfl
  | emit w => exact hs.of_event (e := .sym w) rfl rfl rfl
  | done => exact hs.of_event (e := .frameEnd) rfl rfl rfl
  | create n p => exact State.pinInv_markPin (by simpa using hs.marks)
  | release => exact State.pinInv_markPin hs.marks

/-! ## The host (10_state.md R18, R31, 43_strip_device.md R117) -/

/-- The part of the invariant about HOST_POS, HOST_SUB and HOST_HELD. -/
structure State.HostInv (s : State) : Prop where
  pos : s.hostPos ≤ s.program.length
  sub : s.hostSub ≠ .start → s.devState = .live ∧ inMultiStep s.currentCommand
  ready : subReady s.hostSub s.dev.chState
  held : s.hostHeld = true → s.devState = .live ∧ (s.dev.chState = .transmitting ∨ s.dev.chState = .enabled) ∧
    (s.hostSub = .wait ∨ s.hostSub = .start ∧ ∃ t, s.currentCommand = some (.chWait t))

/-- The parts make up the invariant. -/
theorem State.inv_iff {s : State} : s.Inv ↔ s.DevInv ∧ s.PinInv ∧ s.HostInv := by
  constructor
  · intro ⟨hwf, hbelow, habsent, hdevice, hpos, hsub, hready, hheld, hmarks, hdrive⟩
    exact ⟨⟨hwf, hbelow, habsent, hdevice⟩, ⟨hmarks, hdrive⟩, ⟨hpos, hsub, hready, hheld⟩⟩
  · intro ⟨⟨hwf, hbelow, habsent, hdevice⟩, ⟨hmarks, hdrive⟩, ⟨hpos, hsub, hready, hheld⟩⟩
    exact ⟨hwf, hbelow, habsent, hdevice, hpos, hsub, hready, hheld, hmarks, hdrive⟩

/-- The command the host is at is a word it writes to CMD. -/
theorem State.currentCommand_eq_some {s : State} {i : Instr} (h : s.currentCommand = some i) :
    ∃ w, s.currentAccess = some (.write .w64 0 w) ∧ decodeHost w = .instr i := by
  unfold State.currentCommand at h
  split at h
  next v hv =>
    split at h <;> cases h
    exact ⟨v, hv, ‹_›⟩
  next => cases h

theorem State.currentCommand_of_access {s : State} {w : CmdWord} {i : Instr}
    (ha : s.currentAccess = some (.write .w64 0 w)) (hd : decodeHost w = .instr i) : s.currentCommand = some i := by
  simp only [State.currentCommand, ha, hd]

/-- The command at hand depends on the program and HOST_POS alone. -/
theorem State.currentCommand_congr {s t : State} (hp : t.program = s.program) (hn : t.hostPos = s.hostPos) :
    t.currentCommand = s.currentCommand := by
  simp only [State.currentCommand, State.currentAccess, hp, hn]

/-- A finished command leaves the host at the beginning of its next access. -/
theorem State.HostInv.returnCode {s : State} (hh : s.hostHeld = false) (hp : s.hostPos < s.program.length)
    (c : ResultCode) : (s.returnCode c).HostInv where
  pos := hp
  sub := fun h => absurd rfl h
  ready := trivial
  held := fun h => absurd (hh.symm.trans h) Bool.false_ne_true

/-- So does a finished register access. -/
theorem State.HostInv.finishAccess {s : State} (hh : s.hostHeld = false) (hs : s.hostSub = .start)
    (hp : s.hostPos < s.program.length) : s.finishAccess.HostInv where
  pos := hp
  sub := fun h => absurd hs h
  ready := by rw [State.finishAccess_hostSub, hs]; trivial
  held := fun h => absurd (hh.symm.trans h) Bool.false_ne_true

/-- A finished sub-step leaves the host at the next one. -/
theorem State.HostInv.setSub {s : State} {n : HostSub} {i : Instr} (hh : s.hostHeld = false)
    (hp : s.hostPos ≤ s.program.length) (hl : s.devState = .live) (hi : s.currentCommand = some i)
    (hm : multiStep i = true) (hr : subReady n s.dev.chState) : (s.setSub n).HostInv where
  pos := hp
  sub := fun _ => ⟨hl, i, hi, hm⟩
  ready := hr
  held := fun h => absurd (hh.symm.trans h) Bool.false_ne_true

/-- A command of a host that is not held. -/
theorem HostStep.hostInv {i : Instr} {s t : State} (h : HostStep i s t) (hs : s.HostInv) (hh : s.hostHeld = false)
    (hp : s.hostPos < s.program.length) (hi : s.currentCommand = some i) : t.HostInv := by
  have hp' := hp.le
  cases h with
  | result | setPixel | create | destroy | destroyDrawn | driverError | allocError | enable | transmit | disable |
      delete | encReset =>
    exact .returnCode (by simpa using hh) (by simpa using hp) _
  | dangling | refuse => exact ⟨hs.pos, hs.sub, hs.ready, hs.held⟩
  | hold hl hc hw =>
    refine ⟨hs.pos, hs.sub, hs.ready, fun _ => ⟨hl, .inl hc, ?_⟩⟩
    rcases hw with hw | ⟨w, rfl⟩
    · exact .inl hw
    · refine .inr ⟨by_contra fun hne => ?_, w, hi⟩
      obtain ⟨-, j, hj, hm⟩ := hs.sub hne
      obtain rfl := Option.some.inj (hi.symm.trans hj)
      simp [multiStep] at hm
  | stay hheld | lift _ hheld => simp [hh] at hheld
  | paint vs hm _ hl => exact .setSub hh hp' hl hi hm.1 trivial
  | subEnable hm _ hl =>
    exact .setSub (by simpa using hh) (by simpa using hp') (by simpa using hl)
      ((State.currentCommand_congr (by simp) (by simp)).trans hi) hm rfl
  | subTransmit hm _ hl =>
    exact .setSub (by simpa using hh) (by simpa using hp') (by simpa using hl)
      ((State.currentCommand_congr (by simp) (by simp)).trans hi) hm (.inl rfl)
  | subWait hm hsub _ hc =>
    have hready := hs.ready
    rw [hsub] at hready
    exact .setSub rfl hp' (hs.sub (by simp [hsub])).1 hi hm (hready.resolve_left hc)

/-- Once begun, a multi-step command runs the sub-steps of REFRESH. -/
theorem exec_of_started {i : Instr} {s : State} (hm : multiStep i = true) (hs : s.hostSub ≠ .start) :
    exec i s = refreshStep s := by
  have paint : ∀ p, paintThenRefresh p s = refreshStep s := by
    intro p
    unfold paintThenRefresh
    split
    · exact absurd ‹_› hs
    · rfl
  cases i with
  | setAllPixels | setColour | clear => exact paint _
  | refresh => rfl
  | _ => simp [multiStep] at hm

/-- The step of a held host: its wait lifts, or it stays held (42_transmit_channel.md R99). -/
theorem held_hostInv {i : Instr} {s t : State} (h : exec i s = .next t) (hs : s.HostInv) (hh : s.hostHeld = true)
    (hp : s.hostPos < s.program.length) (hi : s.currentCommand = some i) : t.HostInv := by
  obtain ⟨hl, hc, hw | ⟨-, w, hw⟩⟩ := hs.held hh
  · obtain ⟨-, j, hj, hm⟩ := hs.sub (by simp [hw])
    obtain rfl := Option.some.inj (hi.symm.trans hj)
    rw [exec_of_started hm (by simp [hw]), refreshStep, hw] at h
    rcases chWait_held_cases infiniteTimeout s hh with ⟨hn, e⟩ | ⟨-, hne, -⟩ | ⟨-, -, e⟩
    · rw [e] at h
      cases h
      exact .setSub rfl hp.le hl hi hm (hc.resolve_left hn)
    · exact absurd rfl hne
    · rw [e] at h
      cases h
      exact hs
  · obtain rfl := Option.some.inj (hi.symm.trans hw)
    change finish (chWait w s) = .next t at h
    rcases chWait_held_cases w s hh with ⟨-, e⟩ | ⟨-, -, e⟩ | ⟨-, -, e⟩ <;> rw [e] at h <;> cases h
    · exact .returnCode (s := s.setHeld false) rfl hp _
    · exact .returnCode (s := s.setHeld false) rfl hp _
    · exact hs

/-- A host turn keeps the host's part of the invariant. -/
theorem hostTurn_hostInv {s t : State} (h : hostTurn s = .next t) (hs : s.HostInv)
    (hp : s.hostPos < s.program.length) : t.HostInv := by
  cases hi : s.currentCommand with
  | some i =>
    obtain ⟨w, ha, hd⟩ := State.currentCommand_eq_some hi
    rw [hostTurn_of_command ha hd] at h
    cases hh : s.hostHeld with
    | false => exact (exec_host_cases (decodeHost_hostIssuable hd) h).hostInv hs hh hp hi
    | true => exact held_hostInv h hs hh hp hi
  | none =>
    have hsub : s.hostSub = .start := by_contra fun hne => by
      obtain ⟨-, j, hj, -⟩ := hs.sub hne
      simp [hi] at hj
    have hh : s.hostHeld = false := Bool.eq_false_iff.mpr fun hh => by
      obtain ⟨-, -, hw | ⟨-, w, hw⟩⟩ := hs.held hh
      · simp [hsub] at hw
      · simp [hi] at hw
    cases hostTurn_cases h with
    | refuse | readDangling => exact ⟨hs.pos, hs.sub, hs.ready, hs.held⟩
    | read v => exact .finishAccess (s := s.logRead v) hh hsub hp
    | writeCfg c => exact .finishAccess (s := s.setCfg c) hh hsub hp
    | illegal => exact .returnCode hh hp _
    | command w i ha hd => exact absurd (State.currentCommand_of_access ha hd) (by simp [hi])

/-- An engine step leaves the host alone, and the channel as the host's sub-step or wait needs it. -/
theorem EngineStep.hostInv {s t : State} (h : EngineStep s t) (hs : s.HostInv) : t.HostInv := by
  cases h with
  | chunk =>
    obtain ⟨e, n, c, k, b, i, j, hframe⟩ := runChunk_frame s
    rw [hframe]
    exact ⟨hs.pos, hs.sub, hs.ready, hs.held⟩
  | emit => exact ⟨hs.pos, hs.sub, hs.ready, hs.held⟩
  | done ht =>
    obtain ⟨-, hc⟩ := State.transmitting_iff.mp ht
    refine ⟨hs.pos, hs.sub, ?_, fun hh => ⟨(hs.held hh).1, .inr rfl, (hs.held hh).2.2⟩⟩
    have hready := hs.ready
    rw [hc] at hready
    show subReady s.hostSub .enabled
    cases hsub : s.hostSub with
    | start | enable => trivial
    | transmit | disable => rfl
    | wait => exact .inr rfl

/-! ## The invariant -/

theorem SameBlock.devInv {s t : State} (h : SameBlock s t) (hs : s.DevInv) : t.DevInv where
  memWf := by rw [h.mem]; exact hs.memWf
  memBelow := by rw [h.mem, h.dev]; exact hs.memBelow
  absent := by rw [h.devState, h.dev]; exact hs.absent
  device := by rw [h.devState, h.dev]; exact hs.device

theorem SameBlock.pinInv {s t : State} (h : SameBlock s t) (hs : s.PinInv) : t.PinInv :=
  hs.of_same h.wire h.pinMarks (by rw [State.pinDrive, State.pinDrive, h.devState, h.dev])

theorem State.Drawn.hostInv {s u : State} (h : s.Drawn u) (hs : s.HostInv) : u.HostInv := by
  obtain ⟨i, d, rfl⟩ := h
  exact ⟨hs.pos, hs.sub, hs.ready, hs.held⟩

/-- The host takes a turn only before its program's end. -/
theorem State.hostPos_lt_of_hostEnabled {s : State} (h : s.hostEnabled = true) : s.hostPos < s.program.length := by
  simp only [State.hostEnabled, Bool.and_eq_true, decide_eq_true_eq] at h
  exact h.1.1

/-- A step keeps the host's part of the invariant. -/
theorem step_hostInv {s t : State} (h : step s = .next t) (hs : s.HostInv) : t.HostInv := by
  obtain ⟨u, hu, ⟨hen, hr⟩ | he⟩ := step_turn h
  · have hp := State.hostPos_lt_of_hostEnabled hen
    have hinv := hu.hostInv hs
    obtain ⟨i, d, rfl⟩ := hu
    exact hostTurn_hostInv hr hinv hp
  · exact he.hostInv (hu.hostInv hs)

/-- Settles O8: the first two parts of the invariant are kept by all a step can do to the block, the third by each
agent's turn. -/
theorem stepKeepsInvariant : Obligations.StepKeepsInvariant := by
  unfold Obligations.StepKeepsInvariant
  intro s t hs h
  obtain ⟨hdev, hpin, hhost⟩ := State.inv_iff.mp hs
  exact State.inv_iff.mpr
    ⟨step_keeps (fun _ _ => SameBlock.devInv) (fun _ _ => BlockStep.devInv) h hdev,
      step_keeps (fun _ _ => SameBlock.pinInv) (fun _ _ => BlockStep.pinInv) h hpin, step_hostInv h hhost⟩

/-- Settles O7: after reset there is no device, no drive on the pin, and the host is before its first access. -/
theorem resetMeetsInvariant : Obligations.ResetMeetsInvariant := by
  unfold Obligations.ResetMeetsInvariant
  have h : ∀ p : Platform, (State.resetOn p).Inv := fun p => State.inv_iff.mpr
    ⟨{ memWf := Memory.wf_reset p, memBelow := rfl, absent := fun _ => rfl, device := fun h => nomatch h },
      { marks := rfl, drive := rfl },
      { pos := Nat.zero_le _, sub := fun h => absurd rfl h, ready := trivial, held := fun h => nomatch h }⟩
  exact ⟨h _, h⟩

end Sys2Proof.Machine
end

section
/-! SUPPORT. What every step leaves of the host's side: the program, the position, the sticky bits, RESULT and the lists
that only grow; and who writes the pixel buffer. -/

namespace Sys2Proof.Machine

/-! ## Engine steps and internal operations -/

/-- An engine step changes the device, the wire and the draws to come, and nothing else. -/
theorem EngineStep.frame {s t : State} (h : EngineStep s t) :
    ∃ d es i n, t = { s with dev := d, wire := s.wire ++ es, inputs := i, drawCount := n } := by
  cases h with
  | chunk =>
    obtain ⟨e, m, c, k, b, i, n, h⟩ := runChunk_frame s
    rw [h]
    exact ⟨_, [], i, n, by rw [List.append_nil]⟩
  | emit w rest => exact ⟨_, [.sym w], _, _, rfl⟩
  | done => exact ⟨_, [.frameEnd], _, _, rfl⟩

/-- An encode operation asked for on its own answers the state its call of the encoder made. -/
theorem runEncode_next {name : String} {e : EncodeStep} {s t : State} (h : runEncode name e s = .next t) :
    t = e.state := by
  unfold runEncode at h
  split at h
  · split at h <;> cases h
    rfl
  · cases h

/-- An internal operation leaves the pixel buffer and RACE as they are. -/
theorem exec_internal_frame {i : Instr} {s t : State} (hi : i.hostIssuable = false) (h : exec i s = .next t) :
    t.mem = s.mem ∧ t.faultRace = s.faultRace := by
  have engine : EngineStep s t → t.mem = s.mem ∧ t.faultRace = s.faultRace := fun he => by
    obtain ⟨d, es, i, n, rfl⟩ := he.frame
    exact ⟨rfl, rfl⟩
  cases i with
  | encode f =>
    obtain ⟨e, c, k, b, hf⟩ := encodeChunk_frame f s
    rw [runEncode_next h, hf]
    exact ⟨rfl, rfl⟩
  | bytesEncode f =>
    rw [runEncode_next h, (bytesEncode_spec f s).2.2]
    exact ⟨rfl, rfl⟩
  | copyEncode f =>
    rw [runEncode_next h, copyEncode]
    split <;> exact ⟨rfl, rfl⟩
  | engChunk => exact engine (engineTurn_cases (u := .engChunk) (by simp) h)
  | engEmit => exact engine (engineTurn_cases (u := .engEmit) (by simp) h)
  | engDone => exact engine (engineTurn_cases (u := .engDone) (by simp) h)
  | _ => simp [Instr.hostIssuable] at hi

/-! ## What only grows (10_state.md R18, R24, R45, R47) -/

/-- What every step keeps of the host's side: nothing is taken back, and HOST_POS advances by at most 1. -/
structure HostAdds (s t : State) : Prop where
  program : t.program = s.program
  platform : t.platform = s.platform
  pos : t.hostPos = s.hostPos ∨ t.hostPos = s.hostPos + 1
  race : s.faultRace = true → t.faultRace = true
  dangling : s.faultDangling = true → t.faultDangling = true
  refused : s.faultRefused = true → t.faultRefused = true
  reads : ∃ vs, t.reads = s.reads ++ vs

/-- A step that leaves FAULT and the values read as they are. -/
theorem HostAdds.of_same {s t : State} (hp : t.program = s.program) (hf : t.platform = s.platform)
    (hn : t.hostPos = s.hostPos ∨ t.hostPos = s.hostPos + 1) (hr : t.faultRace = s.faultRace)
    (hd : t.faultDangling = s.faultDangling) (he : t.faultRefused = s.faultRefused) (hv : t.reads = s.reads) :
    HostAdds s t :=
  ⟨hp, hf, hn, hr.trans, hd.trans, he.trans, [], hv.trans (List.append_nil _).symm⟩

theorem HostStep.adds {i : Instr} {s t : State} (h : HostStep i s t) : HostAdds s t := by
  have reads : ∃ vs, s.reads = s.reads ++ vs := ⟨[], (List.append_nil _).symm⟩
  cases h with
  | dangling => exact ⟨rfl, rfl, .inl rfl, id, fun _ => rfl, id, reads⟩
  | refuse => exact ⟨rfl, rfl, .inl rfl, id, id, fun _ => rfl, reads⟩
  | setPixel => exact ⟨rfl, rfl, .inr rfl, fun hr => by simp [hr], id, id, reads⟩
  | paint => exact ⟨rfl, rfl, .inl rfl, fun hr => by simp [hr], id, id, reads⟩
  | hold | stay | subEnable | subTransmit | subWait =>
    exact .of_same (by simp) (by simp) (.inl (by simp)) (by simp) (by simp) (by simp) (by simp)
  | _ => exact .of_same (by simp) (by simp) (.inr (by simp)) (by simp) (by simp) (by simp) (by simp)

theorem AccessStep.adds {s t : State} (h : AccessStep s t) : HostAdds s t := by
  have reads : ∃ vs, s.reads = s.reads ++ vs := ⟨[], (List.append_nil _).symm⟩
  cases h with
  | refuse => exact ⟨rfl, rfl, .inl rfl, id, id, fun _ => rfl, reads⟩
  | read v => exact ⟨rfl, rfl, .inr rfl, id, id, id, [v], rfl⟩
  | readDangling => exact ⟨rfl, rfl, .inl rfl, id, fun _ => rfl, id, [0#32], rfl⟩
  | writeCfg | illegal => exact .of_same rfl rfl (.inr rfl) rfl rfl rfl rfl
  | command w i _ _ hs => exact hs.adds

theorem step_adds {s t : State} (h : step s = .next t) : HostAdds s t := by
  obtain ⟨u, ⟨i, d, rfl⟩, ⟨-, hr⟩ | he⟩ := step_turn h
  · obtain ⟨hp, hf, hn, hr, hd, he, hv⟩ := (hostTurn_cases hr).adds
    exact ⟨hp, hf, hn, hr, hd, he, hv⟩
  · obtain ⟨_, _, _, _, rfl⟩ := he.frame
    exact .of_same rfl rfl (.inl rfl) rfl rfl rfl rfl

/-- The wire history only grows (10_state.md R45). -/
theorem BlockStep.wire {s t : State} (h : BlockStep s t) : ∃ es, t.wire = s.wire ++ es := by
  cases h with
  | idle | pixels | encReset | channel => exact ⟨[], (List.append_nil _).symm⟩
  | start | abort | emit | done => exact ⟨_, rfl⟩
  | chunk f =>
    obtain ⟨e, n, c, k, b, hframe⟩ := runChunk_dev_frame f s
    rw [hframe]
    exact ⟨[], (List.append_nil _).symm⟩
  | create | release => exact ⟨[], by simp⟩

theorem step_wire {s t : State} (h : step s = .next t) : ∃ es, t.wire = s.wire ++ es := by
  obtain ⟨u, v, hu, hv, ht⟩ := step_blockNext h
  obtain ⟨es, hes⟩ := hv.wire
  exact ⟨es, by rw [ht.wire, hes, hu.sameBlock.wire]⟩

/-- FAULT as a word keeps the bits that the state keeps (10_state.md R24). -/
theorem faultWord_and_eq {s t : State} (h : HostAdds s t) : faultWord t &&& faultWord s = faultWord s := by
  have keep : ∀ {a b : Bool}, (b = true → a = true) → BitVec.ofBool a &&& BitVec.ofBool b = BitVec.ofBool b := by
    decide
  have bits : ∀ a b c a' b' c' : BitVec 1,
      (0#29 ++ a ++ b ++ c) &&& (0#29 ++ a' ++ b' ++ c') = 0#29 ++ (a &&& a') ++ (b &&& b') ++ (c &&& c') := by
    intros
    simp only [BitVec.and_append, BitVec.and_self]
  refine (bits _ _ _ _ _ _).trans ?_
  rw [keep h.refused, keep h.dangling, keep h.race]
  rfl

/-- Settles O9: the host's side adds up turn by turn, the wire by what a step does to the block. -/
theorem stepsOnlyAdd : Obligations.StepsOnlyAdd := by
  unfold Obligations.StepsOnlyAdd
  intro s t h
  have ha := step_adds h
  exact ⟨ha.program, ha.platform, ha.pos, faultWord_and_eq ha, step_wire h, ha.reads⟩

/-! ## RESULT (10_state.md R22) -/

/-- The step leaves RESULT, or finishes a command. -/
abbrev ResultRule (s t : State) : Prop := t.result = s.result ∨ t.hostPos = s.hostPos + 1 ∧ t.hostSub = .start

theorem HostStep.result_rule {i : Instr} {s t : State} (h : HostStep i s t) : ResultRule s t := by
  cases h with
  | dangling | refuse | hold | stay | paint | subWait => exact .inl rfl
  | subEnable | subTransmit => exact .inl (by simp)
  | _ => exact .inr ⟨by simp, rfl⟩

theorem AccessStep.result_rule {s t : State} (h : AccessStep s t) :
    t.result = s.result ∨
      (∃ w, s.currentAccess = some (.write .w64 0 w)) ∧ t.hostPos = s.hostPos + 1 ∧ t.hostSub = .start := by
  cases h with
  | refuse | read | readDangling | writeCfg => exact .inl rfl
  | illegal w ha => exact .inr ⟨⟨w, ha⟩, rfl, rfl⟩
  | command w i ha _ hs => exact hs.result_rule.imp_right fun hr => ⟨⟨w, ha⟩, hr⟩

/-- Settles O11: of all turns only a command that finishes writes RESULT. -/
theorem onlyCommandsWriteResult : Obligations.OnlyCommandsWriteResult := by
  unfold Obligations.OnlyCommandsWriteResult
  intro s t h hne
  obtain ⟨u, ⟨i, d, rfl⟩, ⟨-, hr⟩ | he⟩ := step_turn h
  · exact (hostTurn_cases hr).result_rule.resolve_left hne
  · obtain ⟨_, _, _, _, rfl⟩ := he.frame
    exact absurd rfl hne

/-! ## Who writes the pixel buffer (10_state.md R43, 20_memory.md R49, R59) -/

/-- The painting commands are pixel writers. -/
theorem writesPixels_of_paint {i : Instr} (h : multiStep i = true ∧ i ≠ .refresh) : writesPixels i = true := by
  obtain ⟨hm, hr⟩ := h
  cases i with
  | refresh => exact absurd rfl hr
  | setAllPixels | setColour | clear => rfl
  | _ => simp [multiStep] at hm

/-- Noting a race changes RACE only inside a transaction, and sets it. -/
theorem noteRace_of_ne {s : State} (h : s.noteRace.faultRace ≠ s.faultRace) :
    s.dev.chState = .transmitting ∧ s.noteRace.faultRace = true := by
  rw [State.noteRace_faultRace] at h ⊢
  cases hr : s.faultRace <;> simp_all

/-- The pixel buffer's rule for one instruction. -/
def PixelRule (i : Instr) (s t : State) : Prop :=
  (writesPixels i = false → t.mem = s.mem) ∧
    (t.faultRace ≠ s.faultRace →
      s.devState = .live ∧ s.dev.chState = .transmitting ∧ writesPixels i = true ∧ t.faultRace = true)

/-- A writer that notes a race first. -/
theorem PixelRule.of_noteRace {i : Instr} {s t : State} (hi : writesPixels i = true) (hl : s.devState = .live)
    (ht : t.faultRace = s.noteRace.faultRace) : PixelRule i s t := by
  refine ⟨fun h => by simp [hi] at h, fun h => ?_⟩
  rw [ht] at h ⊢
  obtain ⟨hc, hr⟩ := noteRace_of_ne h
  exact ⟨hl, hc, hi, hr⟩

theorem PixelRule.of_same {i : Instr} {s t : State} (hm : writesPixels i = false → t.mem = s.mem)
    (hr : t.faultRace = s.faultRace) : PixelRule i s t :=
  ⟨hm, fun h => absurd hr h⟩

theorem HostStep.pixelRule {i : Instr} {s t : State} (h : HostStep i s t) : PixelRule i s t := by
  cases h with
  | setPixel n r g b hi hl => exact .of_noteRace (hi ▸ rfl) hl rfl
  | paint vs hm _ hl => exact .of_noteRace (writesPixels_of_paint hm) hl rfl
  | create n p hi | destroy hi | destroyDrawn hi =>
    subst hi
    exact .of_same (fun h => by simp [writesPixels] at h) (by simp)
  | _ => exact .of_same (fun _ => by simp) (by simp)

/-- Settles O14: a host command by its cases, an internal operation by its frame. -/
theorem pixelBufferWriters : Obligations.PixelBufferWriters := by
  unfold Obligations.PixelBufferWriters
  intro i s t h
  cases hi : i.hostIssuable with
  | true => exact (exec_host_cases hi h).pixelRule
  | false =>
    obtain ⟨hm, hr⟩ := exec_internal_frame hi h
    exact PixelRule.of_same (fun _ => hm) hr

end Sys2Proof.Machine
end

section
/-! SUPPORT. The status words, the register map and its access rules, CFG writes, and where the internal operations
stop (10_state.md R19 to R42, log 8). -/

namespace Sys2Proof.Machine

/-! ## Status words (10_state.md R23, R24) -/

/-- FAULT bit by bit (10_state.md R24). -/
theorem faultWord_bits (s : State) :
    (faultWord s).getLsbD 0 = s.faultRace ∧ (faultWord s).getLsbD 1 = s.faultDangling ∧
      (faultWord s).getLsbD 2 = s.faultRefused ∧ field (faultWord s) 3 29 = 0#29 := by
  have bits : ∀ a b c : Bool,
      let w : Word := 0#29 ++ BitVec.ofBool c ++ BitVec.ofBool b ++ BitVec.ofBool a
      w.getLsbD 0 = a ∧ w.getLsbD 1 = b ∧ w.getLsbD 2 = c ∧ field w 3 29 = 0#29 := by decide
  exact bits _ _ _

/-- STATUS field by field (10_state.md R23). -/
theorem statusWord_fields (s : State) :
    field (statusWord s) 0 2 = devStateBits s.devState ∧ field (statusWord s) 2 4 = deviceStatusBits s ∧
      field (statusWord s) 6 1 = BitVec.ofBool s.hostHeld ∧ field (statusWord s) 7 25 = 0#25 := by
  unfold statusWord field
  refine ⟨BitVec.extractLsb'_append_eq_right, ?_, ?_, ?_⟩
  · rw [BitVec.extractLsb'_append_eq_of_le (by decide), BitVec.extractLsb'_append_eq_right]
  · rw [BitVec.extractLsb'_append_eq_of_le (by decide), BitVec.extractLsb'_append_eq_of_le (by decide),
      BitVec.extractLsb'_append_eq_right]
  · rw [BitVec.extractLsb'_append_eq_of_le (by decide), BitVec.extractLsb'_append_eq_of_le (by decide),
      BitVec.extractLsb'_append_eq_of_le (by decide), BitVec.extractLsb'_eq_self]

/-- STATUS[5:2] of a LIVE device, field by field (10_state.md R23). -/
theorem statusWord_device_fields {s : State} (h : s.devState = .live) :
    field (statusWord s) 2 2 = chStateBits s.dev.chState ∧ field (statusWord s) 4 1 = encStateBit s.dev.encState ∧
      field (statusWord s) 5 1 = BitVec.ofBool s.dev.encDone := by
  unfold statusWord deviceStatusBits field
  rw [if_pos h]
  refine ⟨?_, ?_, ?_⟩ <;>
    rw [BitVec.extractLsb'_append_eq_of_le (by decide), BitVec.extractLsb'_append_eq_of_add_le (by decide)]
  · rw [BitVec.extractLsb'_append_eq_right]
  · rw [BitVec.extractLsb'_append_eq_of_le (by decide), BitVec.extractLsb'_append_eq_right]
  · rw [BitVec.extractLsb'_append_eq_of_le (by decide), BitVec.extractLsb'_append_eq_of_le (by decide),
      BitVec.extractLsb'_eq_self]

/-- STATUS is 0 after power-on (10_state.md R48). -/
theorem statusWord_resetOn (p : Platform) : statusWord (State.resetOn p) = 0#32 := by
  rw [statusWord, deviceStatusBits, if_neg (by simp [State.resetOn])]
  show 0#25 ++ BitVec.ofBool false ++ 0#4 ++ 0#2 = 0#32
  decide

/-- Settles O24: STATUS field by field. -/
theorem statusFields : Obligations.StatusFields := by
  unfold Obligations.StatusFields
  refine ⟨statusWord_resetOn, fun s => ?_⟩
  obtain ⟨hdev, hmid, hheld, hzero⟩ := statusWord_fields s
  refine ⟨?_, hheld, hzero, fun h => ?_, fun h => ?_⟩
  · rw [hdev]; cases s.devState <;> rfl
  · rw [hmid, deviceStatusBits, if_neg h]
  · obtain ⟨hc, he, hd⟩ := statusWord_device_fields h
    refine ⟨?_, ?_, hd⟩
    · rw [hc]; cases s.dev.chState <;> rfl
    · rw [he]; cases s.dev.encState <;> rfl

/-! ## The register map (10_state.md R19) -/

/-- An offset of the readable 32-bit registers: 0x008 to 0x064 in steps of 4 (10_state.md R19). -/
abbrev wordOffset (offset : Nat) : Prop := 0x008 ≤ offset ∧ offset ≤ 0x064 ∧ offset % 4 = 0

/-- Everything an offset can name, with what the access rules ask of it: width, readability, scope, and whether it is
read-write (10_state.md R19). -/
inductive RegCase (offset : Nat) : Option Reg → Prop
  | cmd (h : offset = 0) : RegCase offset (some .cmd)
  | word (r : Reg) (h : wordOffset offset) (hw : regWidth r = .w32) (hr : regReadable r = true)
      (hd : regIsDevice r = deviceOffset offset)
      (hc : ∀ c v, (writeCfg c v r).isSome = decide (0x040 ≤ offset)) (hp : ∀ j, r ≠ .pixbuf j) :
      RegCase offset (some r)
  | pixbuf (h : 0x1000 ≤ offset) : RegCase offset (some (.pixbuf (offset - 0x1000)))
  | unassigned (h0 : offset ≠ 0) (hw : ¬ wordOffset offset) (hp : offset < 0x1000) : RegCase offset none

theorem regAt_cases (offset : Nat) : RegCase offset (regAt offset) := by
  unfold regAt
  split
  case h_1 => exact .cmd rfl
  case h_26 =>
    split
    next h => exact .pixbuf h
    next h =>
      simp only [imp_false] at *
      exact .unassigned (by omega) (by omega) (by omega)
  all_goals exact .word _ (by decide) rfl rfl rfl (fun _ _ => rfl) (fun _ h => nomatch h)

/-! ## Access rules (10_state.md R20, R22, 60_exceptions.md R128) -/

/-- The reads the map permits are those of a readable register at its width. -/
theorem permittedRead_iff {width : Width} {offset : Nat} : permittedRead width offset = true ↔
    ∃ r, regAt offset = some r ∧ regReadable r = true ∧ width = regWidth r := by
  have hcase := regAt_cases offset
  generalize regAt offset = o at hcase
  simp only [permittedRead, Bool.or_eq_true, Bool.and_eq_true, decide_eq_true_eq, beq_iff_eq]
  cases hcase with
  | cmd h => simp [h, regReadable]
  | word r h hw hr =>
    obtain ⟨h1, h2, h3⟩ := h
    have h4 : ¬ 0x1000 ≤ offset := by omega
    simp [hw, hr, h1, h2, h3, h4]
  | pixbuf h =>
    have h4 : ¬ offset ≤ 0x064 := by omega
    simp [h, h4, regReadable, regWidth]
  | unassigned _ hw hp =>
    have h4 : ¬ 0x1000 ≤ offset := by omega
    simp only [reduceCtorEq, false_and, exists_false, iff_false, h4, and_false, or_false]
    exact fun ⟨⟨⟨_, h1⟩, h2⟩, h3⟩ => hw ⟨h1, h2, h3⟩

/-- A register is of scope "device" as its offset says (10_state.md R19). -/
theorem regIsDevice_of_regAt {offset : Nat} {r : Reg} (h : regAt offset = some r) (hr : regReadable r = true) :
    regIsDevice r = deviceOffset offset := by
  have hcase := regAt_cases offset
  rw [h] at hcase
  cases hcase with
  | cmd => simp [regReadable] at hr
  | word _ _ _ _ hd => exact hd
  | pixbuf hp => simp [regIsDevice, deviceOffset, hp]

/-- The PIXBUF window begins at 0x1000 (10_state.md R19). -/
theorem regAt_pixbuf_iff {offset : Nat} {r : Reg} (h : regAt offset = some r) (j : Nat) :
    r = .pixbuf j ↔ offset = 0x1000 + j := by
  have hcase := regAt_cases offset
  rw [h] at hcase
  cases hcase with
  | cmd h0 => simp [h0]; omega
  | word _ hw _ _ _ _ hp => exact iff_of_false (hp j) (by omega)
  | pixbuf h => simp only [Reg.pixbuf.injEq]; omega

/-- A read the map does not permit is refused. -/
theorem readAccess_of_not_permitted {width : Width} {offset : Nat} (h : permittedRead width offset = false)
    (s : State) : readAccess width offset s = s.refuse := by
  unfold readAccess
  split
  · rfl
  · next r hr =>
    refine if_neg fun hp => ?_
    simp only [Bool.and_eq_true, beq_iff_eq] at hp
    simp [permittedRead_iff.mpr ⟨r, hr, hp⟩] at h

/-- A read the map permits reads its register. -/
theorem readAccess_of_permitted {width : Width} {offset : Nat} {r : Reg} (hr : regAt offset = some r)
    (hread : regReadable r = true) (hw : width = regWidth r) (s : State) :
    readAccess width offset s = readReg r s := by
  simp [readAccess, hr, hread, hw]

/-- A write to a register other than CMD. -/
theorem runAccess_write_of_ne_cmd {offset : Nat} {r : Reg} (hr : regAt offset = some r) (hne : r ≠ .cmd)
    (width : Width) (v : BitVec 64) (s : State) :
    runAccess (.write width offset v) s = .next (writeAccess r width v s) := by
  cases r with
  | cmd => exact absurd rfl hne
  | _ => simp only [runAccess, hr]

/-- A write to a register that is not read-write, or at another width, is refused. -/
theorem writeAccess_refused {r : Reg} {width : Width} {v : BitVec 64} {s : State}
    (h : (writeCfg s.cfg (v.setWidth 32) r).isSome = true → width ≠ .w32) : writeAccess r width v s = s.refuse := by
  unfold writeAccess
  split
  · rfl
  · next c hc => exact if_neg (h (by rw [hc]; rfl))

/-- A write the map does not permit is refused. -/
theorem runAccess_write_of_not_permitted {width : Width} {offset : Nat} (h : permittedWrite width offset = false)
    (v : BitVec 64) (s : State) : runAccess (.write width offset v) s = .next s.refuse := by
  have hcase := regAt_cases offset
  cases hr : regAt offset with
  | none => simp only [runAccess, hr]
  | some r =>
    rw [hr] at hcase
    cases hcase with
    | cmd h0 =>
      have hw : width ≠ .w64 := fun hw => by simp [permittedWrite, hw, h0] at h
      simp only [runAccess, hr, if_neg hw]
    | word _ hword _ hread _ hcfg =>
      rw [runAccess_write_of_ne_cmd hr (fun he => by simp [he, regReadable] at hread), writeAccess_refused]
      intro hsome hw
      rw [hcfg, decide_eq_true_eq] at hsome
      obtain ⟨-, h2, h3⟩ := hword
      simp [permittedWrite, hw, hsome, h2, h3] at h
    | pixbuf =>
      rw [runAccess_write_of_ne_cmd hr (by simp), writeAccess_refused]
      exact fun hsome => nomatch hsome

/-- A read of a register that exists returns its value. -/
theorem readReg_of_exists {r : Reg} {s : State} (h : regIsDevice r = false ∨ s.devState = .live) :
    readReg r s = (s.logRead (regValue s r)).finishAccess := by
  unfold readReg
  rcases h with h | h
  · rw [h, if_neg Bool.false_ne_true]
  · simp only [h, ite_self]

theorem readReg_of_none {r : Reg} {s : State} (hr : regIsDevice r = true) (h : s.devState = .none) :
    readReg r s = (s.logRead 0#32).finishAccess := by
  simp only [readReg, hr, h, if_true]

theorem readReg_of_destroyed {r : Reg} {s : State} (hr : regIsDevice r = true) (h : s.devState = .destroyed) :
    readReg r s = (s.logRead 0#32).raiseDangling := by
  simp only [readReg, hr, h, if_true]

/-- Every readable 32-bit register stands at its offset and shows the state its rule names (10_state.md R19). -/
theorem readTable_correct (s : State) :
    ∀ row ∈ readTable s, regAt row.1 = some row.2.1 ∧ regValue s row.2.1 = row.2.2 := by
  simp only [readTable, List.forall_mem_cons, List.not_mem_nil, false_imp_iff, implies_true, and_true]
  and_intros <;> rfl

/-- Settles O22: the table row by row; an access by what its offset names. -/
theorem registerAccessRules : Obligations.RegisterAccessRules := by
  unfold Obligations.RegisterAccessRules
  refine ⟨fun s => ⟨readTable_correct s, ?_, faultWord_bits s⟩,
    fun s width offset => ⟨fun h => ?_, fun h v => ?_, fun h => ?_⟩⟩
  · cases s.result <;> rfl
  · exact congrArg _ (readAccess_of_not_permitted h s)
  · exact runAccess_write_of_not_permitted h v s
  · obtain ⟨r, hr, hread, hw⟩ := permittedRead_iff.mp h
    have hrun : runAccess (.read width offset) s = .next (readReg r s) :=
      congrArg _ (readAccess_of_permitted hr hread hw s)
    rw [hrun, ← regIsDevice_of_regAt hr hread]
    refine ⟨r, hr, fun he => congrArg _ (readReg_of_exists he), fun hd hn => congrArg _ (readReg_of_none hd hn),
      fun hd hn => congrArg _ (readReg_of_destroyed hd hn), ?_, fun j hj => ⟨(regAt_pixbuf_iff hr j).mp hj, ?_⟩⟩
    · rw [regAt_pixbuf_iff hr]
      omega
    · rw [hj]
      rfl

/-! ## CFG writes (10_state.md R35 to R42) -/

/-- A value truncated to `w` bits is the value with the bits above them 0. -/
theorem setWidth_setWidth_eq_and {w : Nat} (v : Word) :
    (v.setWidth w).setWidth 32 = v &&& (BitVec.allOnes w).setWidth 32 := by
  apply BitVec.eq_of_getLsbD_eq
  intro i hi
  simp [hi, Bool.and_comm]

/-- A permitted write to a CFG register stores it and finishes. -/
theorem runAccess_writeCfg {offset : Nat} {r : Reg} {v : BitVec 64} {s : State} {c : CfgRegs}
    (hr : regAt offset = some r) (hc : writeCfg s.cfg (v.setWidth 32) r = some c) :
    runAccess (.write .w32 offset v) s = .next (s.setCfg c).finishAccess := by
  rw [runAccess_write_of_ne_cmd hr (fun he => by simp [he, writeCfg] at hc), writeAccess, hc]
  rfl

/-- A CFG write leaves every other register as it reads: each CFG register shows a field of its own, and no other
register shows a CFG field. -/
theorem regValue_setCfg_other {s : State} {c : CfgRegs} {v : Word} {r q : Reg} (h : writeCfg s.cfg v r = some c)
    (hq : q ≠ r) : regValue (s.setCfg c).finishAccess q = regValue s q := by
  cases r with
  | cfgResolutionHz | cfgMemBlockSymbols | cfgFlags | cfgClkSrc | cfgQueueDepth | cfgResetUs | cfgT0hNs | cfgT0lNs |
      cfgT1hNs | cfgT1lNs =>
    cases h
    cases q
    all_goals try exact absurd rfl hq
    all_goals rfl
  | _ => cases h

/-- What the CFG table says of one of its rows for a written value: the register stands at the offset, is writable, and
then reads as the value with the bits outside its fields 0. -/
theorem cfgTable_row (s : State) (v : Word) : ∀ row ∈ cfgTable, regAt row.1 = some row.2.1 ∧
    ∃ c, writeCfg s.cfg v row.2.1 = some c ∧ regValue (s.setCfg c).finishAccess row.2.1 = v &&& row.2.2 := by
  have trunc : ∀ {w : Nat} {mask : Word}, (BitVec.allOnes w).setWidth 32 = mask →
      (v.setWidth w).setWidth 32 = v &&& mask := fun h => h ▸ setWidth_setWidth_eq_and v
  simp only [cfgTable, List.forall_mem_cons, List.not_mem_nil, false_imp_iff, implies_true, and_true]
  exact ⟨⟨rfl, _, rfl, BitVec.and_allOnes.symm⟩, ⟨rfl, _, rfl, trunc rfl⟩, ⟨rfl, _, rfl, trunc rfl⟩,
    ⟨rfl, _, rfl, trunc rfl⟩, ⟨rfl, _, rfl, trunc rfl⟩, ⟨rfl, _, rfl, trunc rfl⟩, ⟨rfl, _, rfl, trunc rfl⟩,
    ⟨rfl, _, rfl, trunc rfl⟩, ⟨rfl, _, rfl, trunc rfl⟩, ⟨rfl, _, rfl, trunc rfl⟩⟩

/-- Settles O23: the row's register, what it then reads, and what the write leaves alone. -/
theorem cfgWriteTruncates : Obligations.CfgWriteTruncates := by
  unfold Obligations.CfgWriteTruncates
  intro s v row hrow
  obtain ⟨hr, c, hc, hread⟩ := cfgTable_row s (v.setWidth 32) row hrow
  exact ⟨_, runAccess_writeCfg hr hc, hr, hread, fun q hq => regValue_setCfg_other hc hq, rfl⟩

/-! ## Where the internal operations stop (log 8) -/

/-- An encode operation pushes onto the memory block just what it reports. -/
theorem bytesEncode_memblk (f : Nat) (s : State) :
    (bytesEncode f s).state.dev.memblk = s.dev.memblk ++ (bytesEncode f s).pushed := by
  rw [(bytesEncode_spec f s).2.2]
  rfl

theorem copyEncode_memblk (f : Nat) (s : State) :
    (copyEncode f s).state.dev.memblk = s.dev.memblk ++ (copyEncode f s).pushed := by
  unfold copyEncode
  dsimp only
  split <;> rfl

theorem encodeReset_memblk (f : Nat) (before : List SymWord) (s : State) :
    (encodeReset f before s).pushed = before ++ (copyEncode f s).pushed ∧
      (encodeReset f before s).state.dev.memblk = s.dev.memblk ++ (copyEncode f s).pushed := by
  unfold encodeReset
  dsimp only
  split <;> exact ⟨rfl, copyEncode_memblk f s⟩

theorem encodeChunk_memblk (f : Nat) (s : State) :
    (encodeChunk f s).state.dev.memblk = s.dev.memblk ++ (encodeChunk f s).pushed := by
  unfold encodeChunk
  split
  · obtain ⟨hp, hb⟩ := encodeReset_memblk f [] s
    rw [hp, hb, List.nil_append]
  · dsimp only
    split
    · exact bytesEncode_memblk f s
    · obtain ⟨hp, hb⟩ := encodeReset_memblk (f - (bytesEncode f s).pushed.length) (bytesEncode f s).pushed
        ((bytesEncode f s).state.setEncState .sendReset)
      rw [hp, hb, State.setEncState_dev, bytesEncode_memblk, List.append_assoc]

/-- An encode operation with no device is not enabled. -/
theorem runEncode_of_not_live {name : String} {e : EncodeStep} {s : State} (h : s.devState ≠ .live) :
    runEncode name e s = .refused (.notEnabled name) := if_neg h

/-- An encode operation that pushes more than fits overflows the memory block. -/
theorem runEncode_of_overflow {name : String} {e : EncodeStep} {s : State} (hl : s.devState = .live)
    (he : e.state.dev.memblk = s.dev.memblk ++ e.pushed)
    (h : s.dev.memBlock.toNat < s.dev.memblk.length + e.pushed.length) :
    runEncode name e s = .refused (.blockOverflow name) := by
  rw [runEncode, if_pos hl, if_neg]
  rw [he, List.length_append]
  omega

/-- Settles O46: the guards of the engine's steps, and the two of an encode operation. -/
theorem internalOperationStops : Obligations.InternalOperationStops := by
  unfold Obligations.InternalOperationStops
  intro f s
  refine ⟨fun h => ?_, fun h => ?_, fun h => ?_, fun h => ?_, fun hl => ?_⟩
  · simp only [exec, execEngChunk, h, Bool.false_eq_true, if_false]
  · simp only [exec, execEngEmit, h, Bool.false_eq_true, if_false]
  · simp only [exec, execEngDone, h, Bool.false_eq_true, if_false]
  · exact ⟨runEncode_of_not_live h, runEncode_of_not_live h, runEncode_of_not_live h⟩
  · exact ⟨runEncode_of_overflow hl (encodeChunk_memblk f s), runEncode_of_overflow hl (bytesEncode_memblk f s),
      runEncode_of_overflow hl (copyEncode_memblk f s)⟩

end Sys2Proof.Machine
end

section
/-! SUPPORT. The family of 20_memory.md: the order in which a frame's symbols leave the pixel buffer (R53), what an
infinite wait waits for (R60), and what the engine does not read (R63). -/

namespace Sys2Proof.Machine

/-! ## The symbols of a frame (20_memory.md R53, 40_symbol_encoder.md R83) -/

/-- The bit symbols from a cursor on are those of the cursor positions in turn. -/
theorem symsFrom_eq_map (d : Device) (m : Memory) (c n : Nat) :
    symsFrom d m c n = (List.range n).map fun k => symAt d m (c + k) := by
  induction n generalizing c with
  | zero => rfl
  | succ n ih =>
    simp only [symsFrom, ih, List.range_succ_eq_map, List.map_cons, List.map_map, Nat.add_zero, Function.comp_def,
      Nat.add_assoc, Nat.succ_eq_add_one, Nat.add_comm 1]

/-- The bit symbol at cursor 8j + b is the one of bit 7 − b of byte j (10_state.md R26). -/
theorem symAt_of_bit (d : Device) (m : Memory) (j : Nat) {b : Nat} (hb : b < 8) :
    symAt d m (8 * j + b) = bitSym d ((Memory.read m j).getLsbD (7 - b)) := by
  rw [symAt, show (8 * j + b) / 8 = j by omega, show (8 * j + b) % 8 = b by omega]

/-- The symbols of a byte are the eight bit symbols from its first cursor position on. -/
theorem byteSyms_eq_symsFrom (d : Device) (m : Memory) (j : Nat) :
    byteSyms d (Memory.read m j) = symsFrom d m (8 * j) 8 := by
  have bits : symsFrom d m (8 * j) 8 =
      (List.range 8).map fun b => bitSym d ((Memory.read m j).getLsbD (7 - b)) := by
    rw [symsFrom_eq_map]
    exact List.map_congr_left fun b hb => symAt_of_bit d m j (List.mem_range.mp hb)
  rw [bits]
  rfl

/-- The symbols of whole bytes are the bit symbols from the first one's cursor position on. -/
theorem bytesSyms_eq_symsFrom (d : Device) (m : Memory) (j n : Nat) :
    bytesSyms d m j n = symsFrom d m (8 * j) (8 * n) := by
  induction n generalizing j with
  | zero => rfl
  | succ n ih =>
    rw [bytesSyms, ih, byteSyms_eq_symsFrom, show 8 * (n + 1) = 8 + 8 * n by omega, symsFrom_add,
      show 8 * (j + 1) = 8 * j + 8 by omega]

/-- A frame is all the bit symbols and then the reset symbol. -/
theorem frameSyms_eq_symsFrom (d : Device) (m : Memory) :
    frameSyms d m = symsFrom d m 0 d.bitCount ++ [d.symReset] := by
  rw [frameSyms, bytesSyms_eq_symsFrom, Device.bitCount]

/-- The symbol of a frame at the position of a bit. -/
theorem frameSyms_getElem?_bit (d : Device) (m : Memory) {c : Nat} (hc : c < d.bitCount) :
    (frameSyms d m)[c]? = some (symAt d m c) := by
  rw [frameSyms_eq_symsFrom, List.getElem?_append_left (by rwa [symsFrom_length]), symsFrom_eq_map, List.getElem?_map,
    List.getElem?_range hc, Option.map_some, Nat.zero_add]

/-- Settles O28: the frame as bit symbols by cursor position, the reset symbol after them. -/
theorem frameSymbolOrder : Obligations.FrameSymbolOrder := by
  unfold Obligations.FrameSymbolOrder
  intro d m
  refine ⟨?_, fun j b hj hb => ?_, ?_⟩
  · rw [frameSyms_eq_symsFrom, List.length_append, symsFrom_length]
    rfl
  · have hc : 8 * j + b < d.bitCount := by
      unfold Device.bitCount Device.bufferLen
      omega
    rw [frameSyms_getElem?_bit d m hc, symAt_of_bit d m j hb]
    rfl
  · rw [frameSyms_eq_symsFrom]
    simp [Device.bitCount, Device.bufferLen]

/-! ## An infinite wait (20_memory.md R60, 42_transmit_channel.md R99) -/

/-- A host held in an infinite wait has only WAKE, which is enabled once the channel has left TRANSMITTING. -/
theorem State.holdLifts_infinite_iff {s : State} (h : s.heldTimeout = infiniteTimeout) :
    s.holdLifts = true ↔ s.dev.chState ≠ .transmitting := by
  simp [State.holdLifts, h]

/-- A held host that is neither stopped nor at the program's end has a step exactly if its hold lifts. -/
theorem State.hostEnabled_of_held {s : State} (hh : s.hostHeld = true) (hp : s.hostPos < s.program.length)
    (hs : s.hostStopped = false) : s.hostEnabled = s.holdLifts := by
  simp [State.hostEnabled, hh, hp, hs]

/-- Settles O40: of the steps of a held wait, only WAKE ends an infinite one. -/
theorem infiniteWaitSynchronises : Obligations.InfiniteWaitSynchronises := by
  unfold Obligations.InfiniteWaitSynchronises
  intro s hh hw hp hs
  refine ⟨?_, fun t ht hpos => ?_⟩
  · rw [State.hostEnabled_of_held hh hp hs]
    exact State.holdLifts_infinite_iff hw
  · have ht : finish (chWait infiniteTimeout s) = .next t := ht
    rcases chWait_held_cases infiniteTimeout s hh with ⟨hc, e⟩ | ⟨-, hne, -⟩ | ⟨-, -, e⟩
    · rw [e] at ht
      cases ht
      exact ⟨rfl, State.transmitting_eq_false (.inr hc)⟩
    · exact absurd rfl hne
    · rw [e] at ht
      cases ht
      omega

/-! ## The engine and DEV_CONFIG (20_memory.md R63, 42_transmit_channel.md R109)

Every operation of the engine commutes with a change of DEV_CONFIG. -/

/-- `s` with another DEV_CONFIG. -/
def State.setConfig (s : State) (c : Word) : State := { s with dev := { s.dev with config := c } }

/-- `e` with another DEV_CONFIG in its state. -/
def EncodeStep.setConfig (e : EncodeStep) (c : Word) : EncodeStep := { e with state := e.state.setConfig c }

section
variable (s : State) (c : Word)

@[simp] theorem EncodeStep.setConfig_result (e : EncodeStep) : (e.setConfig c).result = e.result := rfl

/-- A draw does not depend on DEV_CONFIG. -/
theorem State.draw_setConfig : (s.setConfig c).draw = (s.draw.1, s.draw.2.setConfig c) := by
  have inputs : (s.setConfig c).inputs = s.inputs := rfl
  unfold State.draw
  rw [inputs]
  cases s.inputs <;> rfl

theorem State.chunkBudget_setConfig :
    (s.setConfig c).chunkBudget = (s.chunkBudget.1, s.chunkBudget.2.setConfig c) := by
  have policy : (s.setConfig c).platform = s.platform := rfl
  unfold State.chunkBudget
  rw [policy]
  cases s.platform.chunkPolicy with
  | fullBlock => rfl
  | anyFree =>
    show State.drawBudget s.dev.freeSlots (s.setConfig c) = _
    rw [State.drawBudget, State.draw_setConfig]
    rfl

/-- The symbols pushed are those of the symbol registers, the cursor and the pixel buffer. -/
theorem bytesEncode_setConfig (f : Nat) : bytesEncode f (s.setConfig c) = (bytesEncode f s).setConfig c := by
  have syms : ∀ k n, symsFrom (s.setConfig c).dev (s.setConfig c).mem k n = symsFrom s.dev s.mem k n :=
    symsFrom_congr s.dev (s.setConfig c).dev rfl rfl s.mem
  unfold bytesEncode
  simp only [syms, apply_ite (EncodeStep.setConfig · c)]
  rfl

theorem copyEncode_setConfig (f : Nat) : copyEncode f (s.setConfig c) = (copyEncode f s).setConfig c := by
  simp only [copyEncode, apply_ite (EncodeStep.setConfig · c)]
  rfl

theorem encodeReset_setConfig (f : Nat) (before : List SymWord) :
    encodeReset f before (s.setConfig c) = (encodeReset f before s).setConfig c := by
  simp only [encodeReset, copyEncode_setConfig, EncodeStep.setConfig_result]
  cases (copyEncode f s).result <;> rfl

theorem encodeChunk_setConfig (f : Nat) : encodeChunk f (s.setConfig c) = (encodeChunk f s).setConfig c := by
  have state : (s.setConfig c).dev.encState = s.dev.encState := rfl
  simp only [encodeChunk, state, bytesEncode_setConfig, EncodeStep.setConfig_result]
  cases s.dev.encState with
  | sendReset => exact encodeReset_setConfig s c f []
  | sendPixels =>
    cases (bytesEncode f s).result with
    | memFull => rfl
    | complete => exact encodeReset_setConfig ((bytesEncode f s).state.setEncState .sendReset) c _ _

theorem runChunk_setConfig (f : Nat) : runChunk f (s.setConfig c) = (runChunk f s).setConfig c := by
  simp only [runChunk, encodeChunk_setConfig, EncodeStep.setConfig_result]
  cases (encodeChunk f s).result <;> rfl

theorem runEmit_setConfig : runEmit (s.setConfig c) = (runEmit s).setConfig c := by
  have block : (s.setConfig c).dev.memblk = s.dev.memblk := rfl
  simp only [runEmit, block]
  cases s.dev.memblk <;> rfl

theorem runDone_setConfig : runDone (s.setConfig c) = (runDone s).setConfig c := rfl

end

/-- ENG_CHUNK answers only where it is enabled, and then what its chunk makes of the state (42_transmit_channel.md
R102). -/
theorem execEngChunk_eq_next {s t : State} :
    execEngChunk s = .next t ↔ s.chunkEnabled = true ∧ runChunk s.chunkBudget.1 s.chunkBudget.2 = t := by
  by_cases he : s.chunkEnabled = true <;> simp [execEngChunk, he]

/-- The same for ENG_EMIT (42_transmit_channel.md R103). -/
theorem execEngEmit_eq_next {s t : State} : execEngEmit s = .next t ↔ s.emitEnabled = true ∧ runEmit s = t := by
  by_cases he : s.emitEnabled = true <;> simp [execEngEmit, he]

/-- The same for ENG_DONE (42_transmit_channel.md R104). -/
theorem execEngDone_eq_next {s t : State} : execEngDone s = .next t ↔ s.doneEnabled = true ∧ runDone s = t := by
  by_cases he : s.doneEnabled = true <;> simp [execEngDone, he]

/-- An engine step on a device with another DEV_CONFIG is enabled as before and does the same. -/
theorem runTurn_setConfig {u : Turn} {s t : State} (hu : u ≠ .host) (h : runTurn u s = .next t) (c : Word) :
    runTurn u (s.setConfig c) = .next (t.setConfig c) := by
  cases u with
  | host => exact absurd rfl hu
  | engChunk =>
    obtain ⟨he, rfl⟩ := execEngChunk_eq_next.mp h
    exact execEngChunk_eq_next.mpr ⟨he, by rw [State.chunkBudget_setConfig, runChunk_setConfig]⟩
  | engEmit =>
    obtain ⟨he, rfl⟩ := execEngEmit_eq_next.mp h
    exact execEngEmit_eq_next.mpr ⟨he, runEmit_setConfig s c⟩
  | engDone =>
    obtain ⟨he, rfl⟩ := execEngDone_eq_next.mp h
    exact execEngDone_eq_next.mpr ⟨he, runDone_setConfig s c⟩

/-- Settles O50: DEV_CONFIG set before an engine step or after it. -/
theorem engineIgnoresConfig : Obligations.EngineIgnoresConfig := by
  unfold Obligations.EngineIgnoresConfig
  intro u s t c hu h
  exact runTurn_setConfig hu h c

end Sys2Proof.Machine
end

section
/-! SUPPORT. The family of 30_encoding.md: the decoder against the encoder (R64 to R68), illegal words (R67), and the
fields of the symbol words (R72). -/

namespace Sys2Proof

/-! ## A word and its fields (30_encoding.md R64) -/

/-- A field placed back keeps its own bits of the word and no others. -/
theorem getLsbD_place_field (w : CmdWord) (lo n i : Nat) :
    (place (field w lo n) lo).getLsbD i = (decide (lo ≤ i ∧ i < lo + n) && w.getLsbD i) := by
  by_cases hi : i < 64
  · by_cases hlo : lo ≤ i
    · have : i - lo < n ↔ i < lo + n := by omega
      simp [place, field, hi, hlo, this]
    · simp [place, field, hlo, Nat.lt_of_not_le hlo]
  · simp [BitVec.getLsbD_of_ge, Nat.le_of_not_lt hi]

/-- Two neighbouring fields placed back are the field that joins them. -/
theorem place_field_add (w : CmdWord) (lo n m : Nat) :
    place (field w lo (n + m)) lo = place (field w lo n) lo ||| place (field w (lo + n) m) (lo + n) := by
  apply BitVec.eq_of_getLsbD_eq
  intro i _
  have joined : (lo ≤ i ∧ i < lo + (n + m)) ↔ (lo ≤ i ∧ i < lo + n) ∨ (lo + n ≤ i ∧ i < lo + n + m) := by omega
  simp only [BitVec.getLsbD_or, getLsbD_place_field, joined, Bool.decide_or, Bool.and_or_distrib_right]

/-- A word placed back whole. -/
theorem place_field_all (w : CmdWord) : place (field w 0 64) 0 = w := by
  simp [place, field]

/-- A bit pattern of 0s placed anywhere. -/
theorem place_zero (n lo : Nat) : place (0#n) lo = 0#64 := by
  simp [place]

/-- A field above all the 1s of a word. -/
theorem field_of_lt {w : CmdWord} {lo len : Nat} (h : w.toNat < 2 ^ lo) : field w lo len = 0#len := by
  apply BitVec.eq_of_toNat_eq
  rw [field, BitVec.extractLsb'_toNat, Nat.shiftRight_eq_div_pow, Nat.div_eq_of_lt h]
  rfl

/-- A field that a mask covers is the field of the masked word. -/
theorem field_of_masked {w m v : CmdWord} {lo len : Nat} (h : w &&& m = v)
    (hm : field m lo len = BitVec.allOnes len) : field w lo len = field v lo len := by
  rw [← h, field, field, BitVec.extractLsb'_and, show m.extractLsb' lo len = _ from hm, BitVec.and_allOnes]

/-! ## Decoding an encoded instruction (30_encoding.md R65, R68) -/

/-- The opcode and the operands of a word that `encode` built read back, and the must-be-0 bits read 0. -/
theorem decodeRow_encode {i : Instr} (hi : i.wellFormed = true) : decodeRow (encode i) = .instr i := by
  cases i with
  | encode f | bytesEncode f | copyEncode f =>
    have hf : f < 2 ^ 56 := of_decide_eq_true hi
    simpa [decodeRow, encode, field_or, field_place, field_place_of_disjoint] using hf
  | _ => simp [decodeRow, encode, field_or, field_place, field_place_of_disjoint, field_of_lt, ifZero]

/-- Settles O2: the row reads the instruction back, and the host decoder is `hostOnly` of the row. -/
theorem decodeOfEncode : Obligations.DecodeOfEncode := by
  unfold Obligations.DecodeOfEncode
  intro i hi
  have row : decodeRow (encode i) = .instr i := decodeRow_encode hi
  exact ⟨row, by rw [decodeHost, row, hostOnly]⟩

/-! ## Encoding a decoded word (30_encoding.md R67, R68) -/

/-- The fields of `w` of the lengths `ns`, side by side from bit `lo` on, each in its place. -/
def placedFields (w : CmdWord) : Nat → List Nat → CmdWord
  | _, [] => 0#64
  | lo, n :: ns => place (field w lo n) lo ||| placedFields w (lo + n) ns

/-- Fields side by side, placed, are the one field that joins them. -/
theorem placedFields_eq (w : CmdWord) (lo : Nat) (ns : List Nat) :
    placedFields w lo ns = place (field w lo ns.sum) lo := by
  induction ns generalizing lo with
  | nil => simp [placedFields, place]
  | cons n ns ih => rw [placedFields, ih, List.sum_cons, place_field_add]

/-- Fields that fill the 64 bits make up the word. -/
theorem placedFields_all (w : CmdWord) {ns : List Nat} (h : ns.sum = 64) : placedFields w 0 ns = w := by
  rw [placedFields_eq, h, place_field_all]

/-- The lengths of the fields of an instruction's word, from bit 0 on: opcode, operands, must-be-0 bits (R64). -/
def Instr.layout : Instr → List Nat
  | .create _ _ => [8, 16, 16, 24]
  | .setPixel _ _ _ _ | .setAllPixels _ _ _ => [8, 16, 8, 8, 8, 16]
  | .setColour _ | .chTransmit _ => [8, 8, 48]
  | .chWait _ => [8, 32, 24]
  | _ => [8, 56]

theorem Instr.layout_sum (i : Instr) : i.layout.sum = 64 := by
  cases i <;> rfl

/-- To encode to `w` is to encode to the fields of `w` that the format names. -/
theorem encode_eq_of_placedFields {i : Instr} {w : CmdWord} (h : encode i = placedFields w 0 i.layout) : encode i = w :=
  h.trans (placedFields_all w i.layout_sum)

/-- The opcode, in its place. -/
theorem place_opcode {w : CmdWord} {n : Nat} (h : (field w 0 8).toNat = n) :
    place (field w 0 8) 0 = BitVec.ofNat 64 n := by
  rw [← h, BitVec.ofNat_toNat, place, BitVec.shiftLeft_zero]

/-- What a row that checks its must-be-0 bits answers. -/
theorem ifZero_eq_instr {z : Bool} {i j : Instr} : ifZero z i = .instr j ↔ z = true ∧ i = j := by
  cases z <;> simp [ifZero]

/-- A host row reads each operand from the field that `encode` places it in, and the rest of the word is 0. -/
theorem encode_of_decodeRow {w : CmdWord} {i : Instr} (h : decodeRow w = .instr i) (hi : i.hostIssuable = true) :
    encode i = w := by
  unfold decodeRow at h
  split at h
  -- The rows of format FI, which no host may issue, and the words of no row.
  case h_14 | h_15 | h_16 | h_17 | h_18 | h_19 =>
    cases h
    exact absurd hi Bool.false_ne_true
  case h_20 => exact absurd h nofun
  all_goals
    rename_i hop
    obtain ⟨hz, rfl⟩ := ifZero_eq_instr.mp h
    simp only [Bool.and_eq_true, beq_iff_eq] at hz
    apply encode_eq_of_placedFields
    simp [encode, Instr.layout, placedFields, place_opcode hop, hz, place_zero, BitVec.or_assoc]

/-- The host decoder reads a word as its row does. -/
theorem decodeRow_of_decodeHost {w : CmdWord} {i : Instr} (h : decodeHost w = .instr i) : decodeRow w = .instr i := by
  unfold decodeHost hostOnly at h
  split at h
  next j hrow =>
    split at h
    · exact hrow.trans h
    · exact absurd h nofun
  next => exact absurd h nofun

/-- A word the host decoder accepts is the encoding of what it reads. -/
theorem encode_of_decodeHost {w : CmdWord} {i : Instr} (h : decodeHost w = .instr i) : encode i = w :=
  encode_of_decodeRow (decodeRow_of_decodeHost h) (Machine.decodeHost_hostIssuable h)

/-- What a host may issue has no budget to fit. -/
theorem wellFormed_of_hostIssuable {i : Instr} (hi : i.hostIssuable = true) : i.wellFormed = true := by
  cases i with
  | encode _ | bytesEncode _ | copyEncode _ => exact absurd hi Bool.false_ne_true
  | _ => rfl

/-- Settles O3: the row's fields make up the word. -/
theorem encodeOfDecode : Obligations.EncodeOfDecode := by
  unfold Obligations.EncodeOfDecode
  intro w i h
  have hi : i.hostIssuable = true := Machine.decodeHost_hostIssuable h
  exact ⟨encode_of_decodeHost h, hi, wellFormed_of_hostIssuable hi⟩

/-- Settles O1: nine closed terms. -/
theorem encodingExamples : Obligations.EncodingExamples := by
  unfold Obligations.EncodingExamples
  decide

/-! ## Illegal words (30_encoding.md R67) -/

open Machine (hostRows)
open Laws.TableMatch (row)

/-- Every instruction's word has the bits its row fixes. -/
theorem encode_matches_row (i : Instr) : Laws.TableMatch.Statement i :=
  match i with
  | .create n p => Laws.TableMatch.create n p
  | .setPixel i r g b => Laws.TableMatch.setPixel i r g b
  | .setAllPixels r g b => Laws.TableMatch.setAllPixels r g b
  | .setColour c => Laws.TableMatch.setColour c
  | .refresh => Laws.TableMatch.refresh
  | .clear => Laws.TableMatch.clear
  | .destroy => Laws.TableMatch.destroy
  | .encReset => Laws.TableMatch.encReset
  | .chEnable => Laws.TableMatch.chEnable
  | .chTransmit l => Laws.TableMatch.chTransmit l
  | .chWait t => Laws.TableMatch.chWait t
  | .chDisable => Laws.TableMatch.chDisable
  | .chDelete => Laws.TableMatch.chDelete
  | .encode f => Laws.TableMatch.encode f
  | .bytesEncode f => Laws.TableMatch.bytesEncode f
  | .copyEncode f => Laws.TableMatch.copyEncode f
  | .engChunk => Laws.TableMatch.engChunk
  | .engEmit => Laws.TableMatch.engEmit
  | .engDone => Laws.TableMatch.engDone

/-- The thirteen host rows are the rows of what a host may issue. -/
theorem row_mem_hostRows {i : Instr} (hi : i.hostIssuable = true) : row i ∈ hostRows := by
  cases i <;> simp [row, hostRows, Instr.hostIssuable] at hi ⊢

/-- A word that matches a host row has that row's opcode and no must-be-0 bit set, so the decoder accepts it. -/
theorem decodeHost_of_matches {w : CmdWord} {r : CmdWord × CmdWord} (hr : r ∈ hostRows) (h : w &&& r.2 = r.1) :
    ∃ i, decodeHost w = .instr i := by
  simp only [hostRows, List.mem_cons, List.not_mem_nil, or_false] at hr
  rcases hr with rfl | rfl | rfl | rfl | rfl | rfl | rfl | rfl | rfl | rfl | rfl | rfl | rfl
  all_goals
    simp (disch := decide) [decodeHost, decodeRow, field_of_masked h, field_of_lt, ifZero, hostOnly, Instr.hostIssuable]

/-- The host decoder accepts a word exactly if it matches a host row. -/
theorem exists_decodeHost_iff (w : CmdWord) :
    (∃ i, decodeHost w = .instr i) ↔ ∃ r ∈ hostRows, w &&& r.2 = r.1 := by
  constructor
  · rintro ⟨i, h⟩
    have hi : i.hostIssuable = true := Machine.decodeHost_hostIssuable h
    refine ⟨row i, row_mem_hostRows hi, ?_⟩
    rw [← encode_of_decodeHost h]
    exact encode_matches_row i (wellFormed_of_hostIssuable hi)
  · rintro ⟨r, hr, h⟩
    exact decodeHost_of_matches hr h

/-- What is not an instruction is illegal. -/
theorem exists_illegal_iff (d : Decoded) : (∃ why, d = .illegal why) ↔ ¬ ∃ i, d = .instr i := by
  cases d <;> simp

/-- The host decoder rejects a word exactly if it matches no host row. -/
theorem exists_decodeHost_illegal_iff (w : CmdWord) :
    (∃ why, decodeHost w = .illegal why) ↔ ∀ r ∈ hostRows, w &&& r.2 ≠ r.1 := by
  rw [exists_illegal_iff, exists_decodeHost_iff]
  push Not
  rfl

end Sys2Proof

namespace Sys2Proof.Machine

/-- An illegal word only returns INVALID_ARGUMENT (10_state.md R21). -/
theorem issueCommand_of_illegal {w : CmdWord} {why : IllegalWord} (h : decodeHost w = .illegal why) (s : State) :
    issueCommand w s = .next (s.returnCode .invalidArgument) := by
  rw [issueCommand, h]

/-- Settles O4: the host rows are what the decoder accepts, and RESULT, HOST_SUB and HOST_POS are what an early return
writes. -/
theorem illegalWordsRejected : Obligations.IllegalWordsRejected := by
  unfold Obligations.IllegalWordsRejected
  intro w s
  refine ⟨exists_decodeHost_illegal_iff w, fun hno => ?_⟩
  obtain ⟨why, h⟩ := (exists_decodeHost_illegal_iff w).mpr hno
  exact issueCommand_of_illegal h s

/-! ## The fields of the symbol words (30_encoding.md R72, 40_symbol_encoder.md R79, R80) -/

theorem symLevel0_mkSym (a b : Bool) (m n : Nat) : symLevel0 (mkSym a m b n) = a := by
  rw [symLevel0, mkSym, BitVec.getLsbD_append, BitVec.getLsbD_append]
  simp

theorem symLevel1_mkSym (a b : Bool) (m n : Nat) : symLevel1 (mkSym a m b n) = b := by
  rw [symLevel1, mkSym, BitVec.getLsbD_append, BitVec.getLsbD_append, BitVec.getLsbD_append]
  simp

/-- A symbol of two durations in range holds them and their levels. -/
theorem mkSym_fields {m n : Nat} (a b : Bool) (hm : durationOk m = true) (hn : durationOk n = true) :
    symLevel0 (mkSym a m b n) = a ∧ symLevel1 (mkSym a m b n) = b ∧
    symDuration0 (mkSym a m b n) = m ∧ symDuration1 (mkSym a m b n) = n ∧ symOk (mkSym a m b n) = true :=
  ⟨symLevel0_mkSym a b m n, symLevel1_mkSym a b m n, symDuration0_mkSym a b m n ((durationOk_iff m).mp hm).2,
    symDuration1_mkSym a b m n ((durationOk_iff n).mp hn).2, symOk_mkSym a b hm hn⟩

/-- Settles O26: each of the three symbols is made of two of the five durations in range. -/
theorem symbolsHoldTheirDurations : Obligations.SymbolsHoldTheirDurations := by
  unfold Obligations.SymbolsHoldTheirDurations
  intro c h
  simp only [durations, List.all_cons, List.all_nil, Bool.and_true, Bool.and_eq_true] at h
  obtain ⟨ht0h, ht0l, ht1h, ht1l, hreset⟩ := h
  obtain ⟨hi0, lo0, high0, low0, ok0⟩ := mkSym_fields true false ht0h ht0l
  obtain ⟨hi1, lo1, high1, low1, ok1⟩ := mkSym_fields true false ht1h ht1l
  obtain ⟨firstLevel, secondLevel, first, second, okReset⟩ := mkSym_fields false false hreset hreset
  exact ⟨hi0, lo0, high0, low0, hi1, lo1, high1, low1, firstLevel, secondLevel, first, second, ok0, ok1, okReset⟩

end Sys2Proof.Machine
end

section
/-! SUPPORT. The sub-encoders of 40_symbol_encoder.md: one call of BYTES_ENCODE and of COPY_ENCODE (R84, R86), and calls
of BYTES_ENCODE up to the first COMPLETE (R85). -/

namespace Sys2Proof.Machine

/-! ## One call asked for on its own (40_symbol_encoder.md R84, R86) -/

/-- An encode operation that pushes no more than fits answers the state its call of the encoder made (log 8). -/
theorem runEncode_of_room {name : String} {e : EncodeStep} {s : State} (hl : s.devState = .live)
    (he : e.state.dev.memblk = s.dev.memblk ++ e.pushed)
    (h : s.dev.memblk.length + e.pushed.length ≤ s.dev.memBlock.toNat) : runEncode name e s = .next e.state := by
  rw [runEncode, if_pos hl, if_pos]
  rwa [he, List.length_append]

theorem bytesEncode_pushed_length (f : Nat) (s : State) :
    (bytesEncode f s).pushed.length = min f (s.dev.bitCount - s.dev.bytesCursor) := by
  rw [(bytesEncode_spec f s).1, symsFrom_length]

/-- BYTES_ENCODE on a LIVE device with `f` free slots (40_symbol_encoder.md R84). -/
theorem exec_bytesEncode {f : Nat} {s : State} (hl : s.devState = .live)
    (hroom : s.dev.memblk.length + f ≤ s.dev.memBlock.toNat) :
    exec (.bytesEncode f) s = .next ((s.pushSyms (bytesEncode f s).pushed).setBytesCursor
      (if s.dev.bitCount ≤ s.dev.bytesCursor + f then 0 else s.dev.bytesCursor + f)) := by
  have hlen := bytesEncode_pushed_length f s
  rw [← (bytesEncode_spec f s).2.2]
  exact runEncode_of_room hl (bytesEncode_memblk f s) (by omega)

/-- Settles O29: the symbols pushed by cursor position, the result and the cursor by where the budget ends. -/
theorem bytesEncodeResult : Obligations.BytesEncodeResult := by
  unfold Obligations.BytesEncodeResult
  intro f s hl hroom
  obtain ⟨hpushed, hresult, -⟩ := bytesEncode_spec f s
  rw [exec_bytesEncode hl hroom, bytesEncode_pushed_length, hresult, hpushed, symsFrom_eq_map]
  simp only [decide_eq_true_eq]
  exact ⟨rfl, rfl, rfl⟩

/-- Settles O31: the two cases of COPY_ENCODE from a copy cursor of 0. -/
theorem copyEncodeResult : Obligations.CopyEncodeResult := by
  unfold Obligations.CopyEncodeResult
  intro f s hl hc hroom
  have run : (copyEncode f s).pushed.length ≤ 1 →
      exec (.copyEncode f) s = .next (copyEncode f s).state := fun hlen =>
    runEncode_of_room hl (copyEncode_memblk f s) (by omega)
  have hcopy := copyEncode_spec f s hc
  by_cases hf : f = 0
  · simp only [if_pos hf] at hcopy ⊢
    rw [run (by simp [hcopy]), hcopy]
    exact ⟨rfl, rfl, congrArg _ (State.setCopyCursor_zero hc)⟩
  · simp only [if_neg hf] at hcopy ⊢
    rw [run (by simp [hcopy]), hcopy]
    exact ⟨rfl, rfl, congrArg _ (State.setCopyCursor_zero hc)⟩

/-! ## Calls up to the first COMPLETE (40_symbol_encoder.md R85) -/

/-- A call that completes is the last one. -/
theorem bytesCalls_of_complete {f : Nat} {s : State} (fs : List Nat) (h : (bytesEncode f s).result = .complete) :
    bytesCalls (f :: fs) s = some ((bytesEncode f s).pushed, (bytesEncode f s).state) := by
  simp only [bytesCalls, h]

/-- What a call that does not complete pushed stands before what the calls after it push. -/
theorem bytesCalls_of_memFull {f : Nat} {s : State} (fs : List Nat) (h : (bytesEncode f s).result = .memFull) :
    bytesCalls (f :: fs) s =
      (bytesCalls fs (bytesEncode f s).state).map fun r => ((bytesEncode f s).pushed ++ r.1, r.2) := by
  simp only [bytesCalls, h]
  cases bytesCalls fs (bytesEncode f s).state <;> rfl

/-- What two calls push and where the second leaves the cursor. -/
theorem State.pushSyms_setBytesCursor (s : State) (ws vs : List SymWord) (c c' : Nat) :
    (((s.pushSyms ws).setBytesCursor c).pushSyms vs).setBytesCursor c' = (s.pushSyms (ws ++ vs)).setBytesCursor c' := by
  rw [State.pushSyms, State.pushSyms, State.pushSyms, ← List.append_assoc]
  rfl

/-- The bit symbols from the cursor to the end of the buffer. -/
def State.bitsLeft (s : State) : List SymWord :=
  symsFrom s.dev s.mem s.dev.bytesCursor (s.dev.bitCount - s.dev.bytesCursor)

/-- The first symbols left, and those left once they are pushed and the cursor moved past them. -/
theorem State.bitsLeft_split (s : State) {f : Nat} (h : s.dev.bytesCursor + f ≤ s.dev.bitCount) (ws : List SymWord) :
    s.bitsLeft = symsFrom s.dev s.mem s.dev.bytesCursor f ++
      ((s.pushSyms ws).setBytesCursor (s.dev.bytesCursor + f)).bitsLeft := by
  rw [State.bitsLeft, show s.dev.bitCount - s.dev.bytesCursor =
    f + (s.dev.bitCount - (s.dev.bytesCursor + f)) by omega, symsFrom_add]
  exact congrArg _ (symsFrom_congr ((s.pushSyms ws).setBytesCursor (s.dev.bytesCursor + f)).dev s.dev rfl rfl _ _ _)

/-- The calls complete exactly if the budgets reach the end of the buffer from the cursor on, and are then together one
push of all the symbols left, with the cursor back at 0 (40_symbol_encoder.md R85). -/
theorem bytesCalls_eq (fs : List Nat) {s : State} (h : s.dev.bytesCursor < s.dev.bitCount) :
    bytesCalls fs s =
      if s.dev.bitCount ≤ s.dev.bytesCursor + fs.sum then
        some (s.bitsLeft, (s.pushSyms s.bitsLeft).setBytesCursor 0)
      else none := by
  induction fs generalizing s with
  | nil => exact (if_neg (by simpa using h)).symm
  | cons f fs ih =>
    obtain ⟨hpushed, hresult, hstate⟩ := bytesEncode_spec f s
    rw [List.sum_cons, ← Nat.add_assoc]
    by_cases hf : s.dev.bitCount ≤ s.dev.bytesCursor + f
    · rw [if_pos hf] at hresult hstate
      rw [Nat.min_eq_right (by omega), ← State.bitsLeft] at hpushed
      rw [bytesCalls_of_complete fs hresult, hstate, hpushed, if_pos (by omega)]
    · rw [if_neg hf] at hresult hstate
      rw [Nat.min_eq_left (by omega)] at hpushed
      rw [bytesCalls_of_memFull fs hresult, hstate, ih (Nat.lt_of_not_le hf), apply_ite (Option.map _), Option.map_some,
        Option.map_none, State.pushSyms_setBytesCursor, s.bitsLeft_split (f := f) (by omega) (bytesEncode f s).pushed,
        hpushed]
      rfl

/-- Settles O30: the calls from cursor 0 as one push of the whole buffer. -/
theorem bytesEncodeResumes : Obligations.BytesEncodeResumes := by
  unfold Obligations.BytesEncodeResumes
  intro s fs hn hc
  have hleds : s.dev.numLeds.toNat ≠ 0 := fun h => hn (BitVec.eq_of_toNat_eq h)
  have hcalls := bytesCalls_eq fs (s := s) (by rw [hc, Device.bitCount, Device.bufferLen]; omega)
  rw [State.bitsLeft, hc, Nat.zero_add, Nat.sub_zero] at hcalls
  rw [hcalls, bytesSyms_eq_symsFrom]
  constructor
  · intro ws t h
    obtain ⟨-, h⟩ := (Option.ite_none_right_eq_some).mp h
    cases h
    exact ⟨rfl, rfl⟩
  · rw [Option.isSome_ite]
    rfl

end Sys2Proof.Machine
end

section
/-! SUPPORT. The tick counts of 40_symbol_encoder.md: the symbols of the power-on configuration (R82) and the error of
the rounding (R77, 42_transmit_channel.md R108). -/

namespace Sys2Proof.Machine

/-! ## The power-on configuration (40_symbol_encoder.md R82) -/

theorem effRes_reset (p : Platform) : effRes (CfgRegs.reset p) = 10000000#32 := rfl

theorem bit0Sym_reset (p : Platform) : bit0Sym (CfgRegs.reset p) = mkSym true 3 false 9 := by
  rw [bit0Sym, effRes_reset]
  simp [CfgRegs.reset, ticks]

theorem bit1Sym_reset (p : Platform) : bit1Sym (CfgRegs.reset p) = mkSym true 9 false 3 := by
  rw [bit1Sym, effRes_reset]
  simp [CfgRegs.reset, ticks]

theorem resetSym_reset (p : Platform) : resetSym (CfgRegs.reset p) = mkSym false 250 false 250 := by
  rw [resetSym, effRes_reset]
  simp [CfgRegs.reset, Config.defaultResetUs, resetHalf]

/-- Settles O25: the symbols do not depend on the platform, so their words and lengths are closed terms. -/
theorem defaultSymbols : Obligations.DefaultSymbols := by
  unfold Obligations.DefaultSymbols
  intro p
  dsimp only
  rw [effRes_reset, bit0Sym_reset, bit1Sym_reset, resetSym_reset]
  decide

/-! ## The rounding error (40_symbol_encoder.md R77, 42_transmit_channel.md R108) -/

/-- A rounded tick count is within half a tick of the exact one. -/
theorem ticks_error (res t : Nat) :
    ticks res t * 1000000000 ≤ t * res + 500000000 ∧ t * res ≤ ticks res t * 1000000000 + 500000000 := by
  unfold ticks
  omega

/-- Half a tick is at most 150 ns from 3,333,334 Hz on. -/
theorem ticksClose_of_le {res : Nat} (h : 3333334 ≤ res) (t : Nat) : ticksClose res t = true := by
  obtain ⟨hup, hdown⟩ := ticks_error res t
  rw [ticksClose, Bool.and_eq_true, decide_eq_true_iff, decide_eq_true_iff]
  omega

/-- Settles O27: the tolerance holds of each of the four bit times. -/
theorem tickErrorBound : Obligations.TickErrorBound := by
  unfold Obligations.TickErrorBound
  refine ⟨ticks_error, fun c res h => ?_⟩
  simp only [timingOk, ticksClose_of_le h, Bool.and_self]

end Sys2Proof.Machine
end

section
/-! SUPPORT. The waveform of a pin (42_transmit_channel.md R107): one transaction, inversion, a pin that is not driven,
and what CREATE and DESTROY add. -/

namespace Sys2Proof.Machine

/-! ## One transaction (42_transmit_channel.md R107) -/

/-- A symbol that no Abort follows is whole. -/
theorem symOut_of_not_abort {rest : List PinStep} (h : ∀ r, rest ≠ .event .abort :: r) (cuts : List Nat) (d : PinDrive)
    (w : SymWord) : symOut rest cuts d w = symPulses d w :=
  congrFun₂ (symOut_append [] rest cuts h) d w

/-- The idle level is the inversion of the device that drives the pin, else 0. -/
theorem idleOn_some (pin : Half) (d : PinDrive) : idleOn pin (some d) = (decide (d.pin = pin) && d.invert) := by
  by_cases h : d.pin = pin <;> simp [idleOn, driveOn, h]

theorem idleOn_self (d : PinDrive) : idleOn d.pin (some d) = d.invert := by
  rw [idleOn_some, decide_eq_true rfl, Bool.true_and]

/-- The symbols of a transaction as steps of a waveform. -/
def symSteps (ws : List SymWord) : List PinStep := ws.map fun w => .event (.sym w)

@[simp] theorem symSteps_cons (w : SymWord) (ws : List SymWord) :
    symSteps (w :: ws) = .event (.sym w) :: symSteps ws := rfl

section
variable (d : PinDrive) (rest : List PinStep) (cuts : List Nat)

theorem pinWave_sym (w : SymWord) :
    pinWave d.pin (some d) (.event (.sym w) :: rest) cuts =
      symOut rest cuts d w ++ pinWave d.pin (some d) rest cuts := by
  rw [pinWave, driveOn_self]
  rfl

theorem pinWave_frameEnd :
    pinWave d.pin (some d) (.event .frameEnd :: rest) cuts = .rest d.invert :: pinWave d.pin (some d) rest cuts := by
  rw [pinWave, idleOn_self]

theorem pinWave_abort :
    pinWave d.pin (some d) (.event .abort :: rest) cuts = .rest d.invert :: pinWave d.pin (some d) rest cuts.tail := by
  rw [pinWave, idleOn_self]

/-- Symbols back to back, all whole if no Abort follows the last one. -/
theorem pinWave_syms (ws : List SymWord) (h : ∀ r, rest ≠ .event .abort :: r) :
    pinWave d.pin (some d) (symSteps ws ++ rest) cuts =
      ws.flatMap (symPulses d) ++ pinWave d.pin (some d) rest cuts := by
  induction ws with
  | nil => rfl
  | cons w ws ih =>
    have whole : ∀ r, symSteps ws ++ rest ≠ .event .abort :: r := by
      cases ws with
      | nil => exact h
      | cons v ws => simp
    rw [symSteps_cons, List.cons_append, pinWave_sym, symOut_of_not_abort whole, ih, List.flatMap_cons,
      List.append_assoc]

/-- The symbol before an Abort is cut where the free number of that Abort says. -/
theorem pinWave_cut (w : SymWord) (c : Nat) :
    pinWave d.pin (some d) (.event (.sym w) :: .event .abort :: rest) (c :: cuts) =
      cutPulses d w (cutTicks w c) ++ .rest d.invert :: pinWave d.pin (some d) rest cuts := by
  rw [pinWave_sym, pinWave_abort]
  rfl

/-- A transaction that FrameEnd closes. -/
theorem pinWave_transaction (ws : List SymWord) :
    pinWave d.pin (some d) (.event .frameStart :: symSteps ws ++ .event .frameEnd :: rest) cuts =
      ws.flatMap (symPulses d) ++ .rest d.invert :: pinWave d.pin (some d) rest cuts := by
  rw [List.cons_append, pinWave, pinWave_syms d _ cuts ws (by simp), pinWave_frameEnd]

/-- A transaction that an Abort closes in the middle of `w`. -/
theorem pinWave_aborted (ws : List SymWord) (w : SymWord) (c : Nat) :
    pinWave d.pin (some d)
        (.event .frameStart :: symSteps ws ++ .event (.sym w) :: .event .abort :: rest) (c :: cuts) =
      ws.flatMap (symPulses d) ++ cutPulses d w (cutTicks w c) ++
        .rest d.invert :: pinWave d.pin (some d) rest cuts := by
  rw [List.cons_append, pinWave, pinWave_syms d _ _ ws (by simp), pinWave_cut, List.append_assoc]

end

/-- Every length of a cut symbol is picked by some free number (log 20). -/
theorem cutTicks_pred {w : SymWord} {n : Nat} (h1 : 1 ≤ n) (hn : n ≤ symTicks w) : cutTicks w (n - 1) = n := by
  rw [cutTicks, Nat.mod_eq_of_lt (by omega)]
  omega

theorem cutTicks_mod (w : SymWord) (c : Nat) : cutTicks w (c % symTicks w) = cutTicks w c := by
  rw [cutTicks, Nat.mod_mod, cutTicks]

/-! ## Inversion, and a pin that is not driven (42_transmit_channel.md R107) -/

/-- The event with its level inverted. -/
def PinEvent.inverted : PinEvent → PinEvent
  | .rest l => .rest (!l)
  | .pulse l n r => .pulse (!l) n r

/-- The device that drives the pin the other way up. -/
def PinDrive.flipped (d : PinDrive) : PinDrive := { d with invert := !d.invert }

theorem driveOn_flipped (pin : Half) (d : PinDrive) :
    driveOn pin (some d.flipped) = (driveOn pin (some d)).map PinDrive.flipped := by
  by_cases h : d.pin = pin <;> simp [driveOn, PinDrive.flipped, h]

theorem symPulses_flipped (d : PinDrive) (w : SymWord) :
    symPulses d.flipped w = (symPulses d w).map PinEvent.inverted := by
  simp [symPulses, PinDrive.flipped, PinEvent.inverted]

theorem cutPulses_flipped (d : PinDrive) (w : SymWord) (n : Nat) :
    cutPulses d.flipped w n = (cutPulses d w n).map PinEvent.inverted := by
  unfold cutPulses
  split_ifs <;> simp [PinDrive.flipped, PinEvent.inverted]

theorem symOut_flipped (rest : List PinStep) (cuts : List Nat) (d : PinDrive) (w : SymWord) :
    symOut rest cuts d.flipped w = (symOut rest cuts d w).map PinEvent.inverted := by
  unfold symOut
  split
  · exact cutPulses_flipped d w _
  · exact symPulses_flipped d w

theorem idleOn_flipped (d : PinDrive) : idleOn d.pin (some d.flipped) = !idleOn d.pin (some d) := by
  rw [idleOn_self]
  exact idleOn_self d.flipped

/-- The inversion flag inverts the whole line. -/
theorem pinWave_flipped (d : PinDrive) (es : List WireEvent) (cuts : List Nat) :
    pinWave d.pin (some d.flipped) (es.map .event) cuts =
      (pinWave d.pin (some d) (es.map .event) cuts).map PinEvent.inverted := by
  have idle : PinEvent.rest (idleOn d.pin (some d.flipped)) = (PinEvent.rest (idleOn d.pin (some d))).inverted :=
    congrArg PinEvent.rest (idleOn_flipped d)
  induction es generalizing cuts with
  | nil => rfl
  | cons e es ih =>
    rw [List.map_cons]
    cases e with
    | frameStart => exact ih cuts
    | sym w =>
      rw [pinWave, pinWave, driveOn_flipped, driveOn_self, ih, List.map_append]
      exact congrArg (· ++ _) (symOut_flipped _ cuts d w)
    | frameEnd | abort => rw [pinWave, pinWave, ih, idle, List.map_cons]

/-- A pin the block does not drive stays at 0. -/
theorem pinWave_of_not_driven {pin : Half} {d : Option PinDrive} (hd : driveOn pin d = none) (es : List WireEvent)
    (cuts : List Nat) : ∀ e ∈ pinWave pin d (es.map .event) cuts, e = .rest false := by
  have idle : idleOn pin d = false := by rw [idleOn, hd]; rfl
  induction es generalizing cuts with
  | nil => simp [pinWave]
  | cons e es ih =>
    rw [List.map_cons]
    cases e with
    | frameStart => exact ih cuts
    | sym w =>
      rw [pinWave, hd]
      exact ih cuts
    | frameEnd | abort =>
      rw [pinWave, idle]
      exact List.forall_mem_cons.mpr ⟨rfl, ih _⟩

theorem driveOn_eq_none {pin : Half} {d : Option PinDrive} (h : ∀ x, d = some x → x.pin ≠ pin) :
    driveOn pin d = none := by
  cases d with
  | none => rfl
  | some x => exact driveOn_of_ne (h x rfl)

/-! ## The waveform of a state (42_transmit_channel.md R107, log 20) -/

/-- A drive recorded at the wire's end adds the level the pin then rests at. -/
theorem State.waveform_mark {s t : State} {d : Option PinDrive} (hw : t.wire = s.wire)
    (hm : t.pinMarks = s.pinMarks ++ [⟨s.wire.length, d⟩]) (pin : Half) (cuts : List Nat) :
    t.waveform pin cuts = s.waveform pin cuts ++ [.rest (idleOn pin d)] := by
  rw [State.waveform, s.pinSteps_mark t d hw hm, pinWave_drive]
  rfl

/-- A CREATE that makes a device records how it drives its pin (42_transmit_channel.md R110). -/
theorem exec_create_marks {n p : Half} {s t : State} (h : exec (.create n p) s = .next t) (hs : s.devState ≠ .live)
    (ht : t.devState = .live) :
    t.wire = s.wire ∧
      t.pinMarks = s.pinMarks ++ [⟨s.wire.length, some ⟨p, s.cfg.flags.getLsbD 1, effRes s.cfg⟩⟩] := by
  rw [exec_create] at h
  injection h with h
  subst h
  split_ifs at ht ⊢
  · exact absurd ht hs
  · exact absurd ht hs
  · exact absurd ht hs
  · exact absurd (s.allocFails_devState.symm.trans ht) hs
  · simp

/-- A DESTROY that releases its device records that the pin is driven no more (43_strip_device.md R122). -/
theorem exec_destroy_marks {s t : State} (h : exec .destroy s = .next t) (hs : s.devState = .live)
    (ht : t.devState = .destroyed) : t.wire = s.wire ∧ t.pinMarks = s.pinMarks ++ [⟨s.wire.length, none⟩] := by
  cases exec_host_cases rfl h with
  | destroy => exact ⟨rfl, rfl⟩
  | destroyDrawn => simp
  | create n p hi => cases hi
  | _ => exact absurd ht (by simp [hs])

/-- While no transaction is open, a waveform ends at the idle level of the device at hand. -/
theorem State.waveform_last {s : State} (hs : s.Inv) (hw : wireOpen s.wire = some false) (pin : Half)
    (cuts : List Nat) : (s.waveform pin cuts).getLast? = some (.rest (s.idleLevel pin)) := by
  rw [State.idleLevel, ← hs.drive]
  refine pinWave_last pin none s.pinSteps cuts false ?_ (.rest false) fun _ => rfl
  rw [s.pinSteps_events]
  exact hw

theorem State.idleLevel_eq (s : State) (pin : Half) :
    s.idleLevel pin = (decide (s.devState = .live ∧ s.dev.pin = pin) && s.dev.config.getLsbD 1) := by
  rw [State.idleLevel, State.pinDrive]
  by_cases h : s.devState = .live
  · rw [if_pos h, idleOn_some]
    simp [h, Device.invertOut]
  · rw [if_neg h]
    simp [h, idleOn]

/-- Settles O48: a transaction by its symbols, inversion and an undriven pin by the events, a state's waveform by its
record of drives. -/
theorem waveformOfTransaction : Obligations.WaveformOfTransaction := by
  unfold Obligations.WaveformOfTransaction
  refine ⟨fun pin inv res ws rest cuts => ?_, fun pin res es cuts => ?_, fun pin d es cuts h =>
    pinWave_of_not_driven (driveOn_eq_none h) es cuts, fun s pin cuts hs => ?_⟩
  · let d : PinDrive := ⟨pin, inv, res⟩
    refine ⟨pinWave_transaction d rest cuts ws, pinWave_abort d rest cuts, fun w => ⟨fun n h1 hn => ?_, fun c => ?_⟩⟩
    · have aborted := pinWave_aborted d rest cuts ws w (n - 1)
      rw [cutTicks_pred h1 hn] at aborted
      exact aborted
    · have aborted := pinWave_aborted d rest cuts ws w
      exact (aborted c).trans ((cutTicks_mod w c ▸ aborted (c % symTicks w)).symm)
  · refine (pinWave_flipped ⟨pin, false, res⟩ es cuts).trans (List.map_congr_left fun e _ => ?_)
    cases e <;> rfl
  · refine ⟨rfl, fun es => s.pinSteps_wire _ es hs.marks rfl rfl, fun n p t h hd ht => ?_, fun t h hd ht => ?_,
      fun hw => ?_⟩
    · obtain ⟨hwire, hmarks⟩ := exec_create_marks h hd ht
      rw [State.waveform_mark hwire hmarks, idleOn_some]
    · obtain ⟨hwire, hmarks⟩ := exec_destroy_marks h hd ht
      exact State.waveform_mark hwire hmarks pin cuts
    · rw [State.waveform_last hs hw, State.idleLevel_eq]

end Sys2Proof.Machine
end

section
/-! SUPPORT. How long bits, frames and transactions last (70_reset_and_hazards.md R155). -/

namespace Sys2Proof.Machine

/-! ## Ticks (40_symbol_encoder.md R76, 70_reset_and_hazards.md R155) -/

@[simp] theorem symsTicks_nil : symsTicks [] = 0 := rfl

@[simp] theorem symsTicks_cons (w : SymWord) (ws : List SymWord) : symsTicks (w :: ws) = symTicks w + symsTicks ws :=
  List.sum_cons

@[simp] theorem symsTicks_append (ws vs : List SymWord) : symsTicks (ws ++ vs) = symsTicks ws + symsTicks vs := by
  rw [symsTicks, List.map_append, List.sum_append, symsTicks, symsTicks]

theorem tickSeconds_add (m n : Nat) (res : Word) : tickSeconds (m + n) res = tickSeconds m res + tickSeconds n res := by
  rw [tickSeconds, Nat.cast_add, add_div, tickSeconds, tickSeconds]

theorem tickSeconds_mul (m n : Nat) (res : Word) : tickSeconds (m * n) res = m * tickSeconds n res := by
  rw [tickSeconds, Nat.cast_mul, mul_div_assoc, tickSeconds]

/-- A symbol of two durations in range lasts their sum. -/
theorem symTicks_mkSym {m n : Nat} (a b : Bool) (hm : durationOk m = true) (hn : durationOk n = true) :
    symTicks (mkSym a m b n) = m + n := by
  obtain ⟨-, -, first, second, -⟩ := mkSym_fields a b hm hn
  rw [symTicks, first, second]

/-! ## Frames (70_reset_and_hazards.md R155) -/

/-- Bit symbols last the time of the zeros and of the ones among them. -/
theorem symsTicks_symsFrom (d : Device) (m : Memory) (c n : Nat) :
    ∃ zeros ones, zeros + ones = n ∧
      symsTicks (symsFrom d m c n) = zeros * symTicks d.symBit0 + ones * symTicks d.symBit1 := by
  induction n generalizing c with
  | zero => exact ⟨0, 0, rfl, by simp [symsFrom]⟩
  | succ n ih =>
    obtain ⟨zeros, ones, hn, hticks⟩ := ih (c + 1)
    rw [symsFrom, symsTicks_cons, hticks, symAt, bitSym]
    split
    · exact ⟨zeros, ones + 1, by omega, by ring⟩
    · exact ⟨zeros + 1, ones, by omega, by ring⟩

/-- A frame of `N` LEDs lasts the time of its `24 · N` bits and of the reset symbol. -/
theorem symsTicks_frameSyms (d : Device) (m : Memory) :
    ∃ zeros ones, zeros + ones = 24 * d.numLeds.toNat ∧
      symsTicks (frameSyms d m) =
        zeros * symTicks d.symBit0 + ones * symTicks d.symBit1 + symTicks d.symReset := by
  obtain ⟨zeros, ones, hn, hticks⟩ := symsTicks_symsFrom d m 0 d.bitCount
  refine ⟨zeros, ones, ?_, ?_⟩
  · rw [hn, Device.bitCount, Device.bufferLen]
    omega
  · rw [frameSyms_eq_symsFrom, symsTicks_append, hticks, symsTicks_cons, symsTicks_nil, Nat.add_zero]

/-- A frame whose bits all last `b` ticks. -/
theorem symsTicks_frameSyms_of_equal {d : Device} {b : Nat} (h0 : symTicks d.symBit0 = b) (h1 : symTicks d.symBit1 = b)
    (m : Memory) : symsTicks (frameSyms d m) = 24 * d.numLeds.toNat * b + symTicks d.symReset := by
  obtain ⟨zeros, ones, hn, hticks⟩ := symsTicks_frameSyms d m
  rw [hticks, h0, h1, ← Nat.add_mul, hn]

theorem frameSeconds_of_equal {d : Device} {b : Nat} (h0 : symTicks d.symBit0 = b) (h1 : symTicks d.symBit1 = b)
    (m : Memory) :
    d.frameSeconds m = 24 * d.numLeds.toNat * tickSeconds b d.resolutionHz + d.symSeconds d.symReset := by
  rw [Device.frameSeconds, symsTicks_frameSyms_of_equal h0 h1, tickSeconds_add, tickSeconds_mul, Device.symSeconds]
  push_cast
  rfl

/-- The pulses of symbols last as long as the symbols. -/
theorem waveSeconds_flatMap_symPulses (d : PinDrive) (ws : List SymWord) :
    waveSeconds (ws.flatMap (symPulses d)) = tickSeconds (symsTicks ws) d.res := by
  induction ws with
  | nil => simp [tickSeconds]
  | cons w ws ih =>
    rw [List.flatMap_cons, waveSeconds_append, waveSeconds_symPulses, ih, symsTicks_cons, tickSeconds_add]

theorem waveSeconds_rest (l : Bool) : waveSeconds [.rest l] = 0 := by
  simp [waveSeconds, pulseSeconds]

/-- The pulses of a transaction on its device's pin last as long as its symbols. -/
theorem waveSeconds_transaction (d : PinDrive) (ws : List SymWord) (cuts : List Nat) :
    waveSeconds (pinWave d.pin (some d) (.event .frameStart :: symSteps ws ++ [.event .frameEnd]) cuts) =
      tickSeconds (symsTicks ws) d.res := by
  rw [pinWave_transaction, pinWave, waveSeconds_append, waveSeconds_flatMap_symPulses, waveSeconds_rest, add_zero]

/-! ## New devices (43_strip_device.md R113, 40_symbol_encoder.md R82) -/

/-- The symbols of a new device last the durations CREATE computed. -/
theorem symTicks_createdDevice (n p : Half) {c : CfgRegs} (h : (durations c).all durationOk = true) :
    let d := createdDevice n p c
    let res := (effRes c).toNat
    symTicks d.symBit0 = ticks res c.t0hNs.toNat + ticks res c.t0lNs.toNat ∧
    symTicks d.symBit1 = ticks res c.t1hNs.toNat + ticks res c.t1lNs.toNat ∧
    symTicks d.symReset = 2 * resetHalf res c.resetUs.toNat := by
  simp only [durations, List.all_cons, List.all_nil, Bool.and_true, Bool.and_eq_true] at h
  obtain ⟨ht0h, ht0l, ht1h, ht1l, hreset⟩ := h
  exact ⟨symTicks_mkSym true false ht0h ht0l, symTicks_mkSym true false ht1h ht1l,
    (symTicks_mkSym false false hreset hreset).trans (Nat.two_mul _).symm⟩

/-- A tick of the power-on configuration is 100 ns (40_symbol_encoder.md R82). -/
theorem tickSeconds_default (n : Nat) : tickSeconds n 10000000#32 = n / 10000000 := by
  rw [tickSeconds, show (10000000#32).toNat = 10000000 from rfl, Nat.cast_ofNat]

/-- The symbols of a device of the power-on configuration: 1.2 µs, 1.2 µs and 50 µs (40_symbol_encoder.md R82). -/
theorem symSeconds_default (pl : Platform) (n p : Half) :
    let d := createdDevice n p (CfgRegs.reset pl)
    d.symSeconds d.symBit0 = 12 / 10000000 ∧ d.symSeconds d.symBit1 = 12 / 10000000 ∧
      d.symSeconds d.symReset = 50 / 1000000 := by
  obtain ⟨-, -, -, -, -, -, -, hbit0, hbit1, hreset⟩ := defaultSymbols pl
  have seconds : ∀ {w k}, symTicks w = k → (createdDevice n p (CfgRegs.reset pl)).symSeconds w = k / 10000000 :=
    fun h => (congrArg (tickSeconds · _) h).trans (tickSeconds_default _)
  exact ⟨seconds hbit0, seconds hbit1, (seconds hreset).trans (by norm_num)⟩

/-- The frame of a device of the power-on configuration (70_reset_and_hazards.md R155). -/
theorem frameSeconds_default (pl : Platform) (n p : Half) (m : Memory) :
    (createdDevice n p (CfgRegs.reset pl)).frameSeconds m = 24 * n.toNat * (12 / 10000000) + 50 / 1000000 := by
  obtain ⟨-, -, -, -, -, -, -, hbit0, hbit1, -⟩ := defaultSymbols pl
  obtain ⟨-, -, hreset⟩ := symSeconds_default pl n p
  have frame := frameSeconds_of_equal (d := createdDevice n p (CfgRegs.reset pl)) hbit0 hbit1 m
  rw [hreset, createdDevice_resolutionHz, effRes_reset, tickSeconds_default] at frame
  exact frame

/-- Settles O49: frames by counting zeros and ones, transactions by their pulses, and the defaults by R82. -/
theorem frameDuration : Obligations.FrameDuration := by
  unfold Obligations.FrameDuration
  refine ⟨fun d m => ?_, fun d m b h0 h1 => ⟨symsTicks_frameSyms_of_equal h0 h1 m, frameSeconds_of_equal h0 h1 m⟩,
    fun n p c h => ?_, fun d m inv cuts =>
      waveSeconds_transaction ⟨d.pin, inv, d.resolutionHz⟩ (frameSyms d m) cuts, fun pl n p m => ?_⟩
  · obtain ⟨zeros, ones, hn, hticks⟩ := symsTicks_frameSyms d m
    refine ⟨zeros, ones, hn, ?_⟩
    rw [Device.frameSeconds, hticks, tickSeconds_add, tickSeconds_add, tickSeconds_mul, tickSeconds_mul]
    rfl
  · obtain ⟨hbit0, hbit1, hreset⟩ := symTicks_createdDevice n p h
    exact ⟨rfl, congrArg (tickSeconds · _) hbit0, congrArg (tickSeconds · _) hbit1, congrArg (tickSeconds · _) hreset⟩
  · obtain ⟨hbit0, hbit1, -⟩ := symSeconds_default pl n p
    refine ⟨hbit0, hbit1, frameSeconds_default pl n p m, ?_⟩
    rintro rfl
    exact (frameSeconds_default pl 2#16 p m).trans (by norm_num)

end Sys2Proof.Machine
end

section
/-! SUPPORT. The strip encoder of 41_strip_encoder_fsm.md: one call of ENCODE (R88, R89), the calls of a whole frame
(R90, R91), ENC_RESET (R92) and the dead cursor (R93). -/

namespace Sys2Proof.Machine

/-! ## The frame an encoder has left (41_strip_encoder_fsm.md R93) -/

/-- The symbols a frame has left from where its encoder stands. -/
def Device.frameLeft (d : Device) (m : Memory) : List SymWord :=
  match d.encState with
  | .sendReset => [d.symReset]
  | .sendPixels => symsFrom d m d.bytesCursor (d.bitCount - d.bytesCursor) ++ [d.symReset]

section
variable {d : Device} {m : Memory}

theorem Device.frameLeft_sendReset (h : d.encState = .sendReset) : d.frameLeft m = [d.symReset] := by
  rw [Device.frameLeft, h]

theorem Device.frameLeft_sendPixels (h : d.encState = .sendPixels) :
    d.frameLeft m = symsFrom d m d.bytesCursor (d.bitCount - d.bytesCursor) ++ [d.symReset] := by
  rw [Device.frameLeft, h]

/-- An encoder at rest has the whole frame left. -/
theorem Device.frameLeft_atRest (h : d.atRest) : d.frameLeft m = frameSyms d m := by
  obtain ⟨hs, hb, -⟩ := h
  rw [Device.frameLeft_sendPixels hs, hb, Nat.sub_zero, frameSyms_eq_symsFrom]

/-- The reset symbol is left until the frame is complete. -/
theorem Device.frameLeft_length_pos : 1 ≤ (d.frameLeft m).length := by
  cases h : d.encState with
  | sendPixels => simp [Device.frameLeft_sendPixels h]
  | sendReset => simp [Device.frameLeft_sendReset h]

/-- The pixels from the cursor on and the reset symbol are the frame with the symbols before the cursor removed. -/
theorem Device.frameLeft_eq_drop (h : d.encState = .sendPixels) :
    d.frameLeft m = (frameSyms d m).drop (min d.bytesCursor d.bitCount) := by
  have before : d.bitCount = min d.bytesCursor d.bitCount + (d.bitCount - d.bytesCursor) := by omega
  have tail : symsFrom d m (0 + min d.bytesCursor d.bitCount) (d.bitCount - d.bytesCursor) =
      symsFrom d m d.bytesCursor (d.bitCount - d.bytesCursor) := by
    rcases Nat.le_total d.bytesCursor d.bitCount with hc | hc
    · rw [Nat.min_eq_left hc, Nat.zero_add]
    · rw [Nat.sub_eq_zero_of_le hc, symsFrom, symsFrom]
  have split : symsFrom d m 0 d.bitCount =
      symsFrom d m 0 (min d.bytesCursor d.bitCount) ++ symsFrom d m d.bytesCursor (d.bitCount - d.bytesCursor) := by
    rw [← tail, ← symsFrom_add, ← before]
  rw [Device.frameLeft_sendPixels h, frameSyms_eq_symsFrom, split, List.append_assoc]
  exact (List.drop_left' (symsFrom_length ..)).symm

end

/-- What a transaction has not yet encoded is what its encoder has left, until ENC_DONE. -/
theorem State.unencoded_eq_frameLeft {s : State} (h : s.dev.encDone = false) :
    s.unencoded = s.dev.frameLeft s.mem := by
  cases he : s.dev.encState with
  | sendPixels => rw [State.unencoded_of_sendPixels h he, Device.frameLeft_sendPixels he]
  | sendReset => rw [State.unencoded_of_sendReset h he, Device.frameLeft_sendReset he]

theorem State.frameLeft_encodedTo_sendPixels (s : State) (c : Nat) (ws : List SymWord) :
    (s.encodedTo .sendPixels c ws).dev.frameLeft s.mem =
      symsFrom s.dev s.mem c (s.dev.bitCount - c) ++ [s.dev.symReset] := by
  rw [Device.frameLeft_sendPixels rfl, symsFrom_congr s.dev (s.encodedTo .sendPixels c ws).dev rfl rfl]
  rfl

/-! ## One call of ENCODE (41_strip_encoder_fsm.md R88, R89) -/

/-- The cursors of an encoder inside a frame (10_state.md R26, R27). -/
structure Device.Encoding (d : Device) : Prop where
  copy : d.copyCursor = 0
  cursor : d.bytesCursor < d.bitCount
  reset : d.encState = .sendReset → d.bytesCursor = 0

theorem Device.bitCount_pos {d : Device} (h : d.numLeds ≠ 0#16) : 0 < d.bitCount := by
  have : d.numLeds.toNat ≠ 0 := fun h0 => h (BitVec.eq_of_toNat_eq h0)
  unfold Device.bitCount Device.bufferLen
  omega

theorem Device.Encoding.of_atRest {d : Device} (hn : d.numLeds ≠ 0#16) (h : d.atRest) : d.Encoding := by
  obtain ⟨hs, hb, hc⟩ := h
  exact ⟨hc, hb ▸ Device.bitCount_pos hn, fun _ => hb⟩

theorem Device.Inv.encoding {d : Device} (h : d.Inv) : d.Encoding := ⟨h.copy, h.cursor, h.reset⟩

theorem Device.Encoding.encodeCase {s : State} (h : s.dev.Encoding) (f : Nat) : EncodeCase f s (encodeChunk f s) :=
  encodeChunk_cases f h.copy h.cursor.le

/-- A call pushes at least one symbol and no more than its budget (41_strip_encoder_fsm.md R89). -/
theorem EncodeCase.pushed_length {f : Nat} {s : State} {r : EncodeStep} (h : EncodeCase f s r) (hf : 1 ≤ f) :
    1 ≤ r.pushed.length ∧ r.pushed.length ≤ f := by
  cases h with
  | pixels ws _ _ hw | lastPixels ws _ _ hw | frame ws _ _ hw =>
    subst hw
    simp
    omega
  | noReset _ hf0 => omega
  | reset => simpa using hf

/-- One call against the frame left. It completes with the last symbol of the frame, or it uses its whole budget and
leaves the rest of the frame. -/
theorem encodeChunk_frameLeft {f : Nat} {s : State} (hf : 1 ≤ f) (hs : s.dev.Encoding) :
    let e := encodeChunk f s
    (e.result = .complete ∧ e.pushed = s.dev.frameLeft s.mem ∧ e.pushed.length ≤ f ∧ e.state.dev.atRest) ∨
      (e.result = .memFull ∧ e.pushed ++ e.state.dev.frameLeft e.state.mem = s.dev.frameLeft s.mem ∧
        e.pushed.length = f ∧ e.state.dev.Encoding) := by
  have hcase := hs.encodeCase f
  have hle := (hcase.pushed_length hf).2
  generalize encodeChunk f s = e at hcase hle
  cases hcase with
  | pixels ws he hlt hw =>
    refine .inr ⟨rfl, ?_, by simp [hw], hs.copy, hlt, nofun⟩
    refine (congrArg (ws ++ ·) (s.frameLeft_encodedTo_sendPixels (s.dev.bytesCursor + f) ws)).trans ?_
    rw [Device.frameLeft_sendPixels he, hw, ← List.append_assoc, ← symsFrom_add]
    congr 3
    omega
  | lastPixels ws he heq hw =>
    refine .inr ⟨rfl, ?_, by simp [hw], hs.copy, Nat.zero_lt_of_lt hs.cursor, fun _ => rfl⟩
    rw [Device.frameLeft_sendReset (d := (s.encodedTo .sendReset 0 ws).dev) rfl, Device.frameLeft_sendPixels he, hw,
      show s.dev.bitCount - s.dev.bytesCursor = f by omega]
    rfl
  | frame ws he _ hw =>
    exact .inl ⟨rfl, hw.trans (Device.frameLeft_sendPixels he).symm, hle, rfl, rfl, hs.copy⟩
  | noReset _ hf0 => omega
  | reset he => exact .inl ⟨rfl, (Device.frameLeft_sendReset he).symm, hle, rfl, hs.reset he, hs.copy⟩

/-- ENCODE on a LIVE device with `f` free slots, asked for on its own (log 8). -/
theorem exec_encode {f : Nat} {s : State} (hl : s.devState = .live) (hf : 1 ≤ f)
    (hroom : s.dev.memblk.length + f ≤ s.dev.memBlock.toNat) (h : EncodeCase f s (encodeChunk f s)) :
    exec (.encode f) s = .next (encodeChunk f s).state := by
  have hle := (h.pushed_length hf).2
  exact runEncode_of_room hl (encodeChunk_memblk f s) (by omega)

/-- Settles O32: the cases of one call by where its budget ends. -/
theorem encodeTransitions : Obligations.EncodeTransitions := by
  unfold Obligations.EncodeTransitions
  intro f s hl hf hroom hc hb
  have hcase := encodeChunk_cases f hc hb.le
  have hlen := hcase.pushed_length hf
  dsimp only
  rw [exec_encode hl hf hroom hcase]
  generalize encodeChunk f s = e at hcase hlen
  cases hcase with
  | pixels ws he hlt hw =>
    have hleft : f < s.dev.bitCount - s.dev.bytesCursor := by omega
    refine ⟨?_, by simp [he]; omega, hlen⟩
    simp only [he, if_pos hleft, Nat.min_eq_left hleft.le, State.encodedTo, hw]
  | lastPixels ws he heq hw =>
    have hleft : f = s.dev.bitCount - s.dev.bytesCursor := by omega
    refine ⟨?_, by simp [he]; omega, hlen⟩
    simp only [he, if_neg hleft.not_lt, if_pos hleft, Nat.min_eq_left hleft.le, State.encodedTo, hw]
  | frame ws he hgt hw =>
    have hleft : s.dev.bitCount - s.dev.bytesCursor < f := by omega
    refine ⟨?_, by simp [hleft], hlen⟩
    simp only [he, if_neg hleft.not_gt, if_neg hleft.ne', Nat.min_eq_right hleft.le, State.encodedTo, hw,
      List.append_assoc]
  | noReset _ hf0 => omega
  | reset he => exact ⟨by simp only [he, State.encodedTo], by simp [he], hlen⟩

/-! ## The calls of a frame (41_strip_encoder_fsm.md R90, R91) -/

/-- A call that completes is the last one. -/
theorem encodeCalls_of_complete {f : Nat} {s : State} (fs : List Nat) (h : (encodeChunk f s).result = .complete) :
    encodeCalls (f :: fs) s = some ((encodeChunk f s).pushed, (encodeChunk f s).state) := by
  simp only [encodeCalls, h]

/-- What a call that does not complete pushed stands before what the calls after it push. -/
theorem encodeCalls_of_memFull {f : Nat} {s : State} (fs : List Nat) (h : (encodeChunk f s).result = .memFull) :
    encodeCalls (f :: fs) s =
      (encodeCalls fs (encodeChunk f s).state).map fun r => ((encodeChunk f s).pushed ++ r.1, r.2) := by
  simp only [encodeCalls, h]
  cases encodeCalls fs (encodeChunk f s).state <;> rfl

/-- The calls complete exactly if the budgets add up to the frame left; they then push just that, and leave the encoder
at rest. -/
theorem encodeCalls_frameLeft {fs : List Nat} {s : State} (hfs : ∀ f ∈ fs, 1 ≤ f) (hs : s.dev.Encoding) :
    ((encodeCalls fs s).isSome = true ↔ (s.dev.frameLeft s.mem).length ≤ fs.sum) ∧
      ∀ r ∈ encodeCalls fs s, r.1 = s.dev.frameLeft s.mem ∧ r.2.dev.atRest := by
  induction fs generalizing s with
  | nil =>
    have hpos := s.dev.frameLeft_length_pos (m := s.mem)
    exact ⟨iff_of_false (by simp [encodeCalls]) (by rw [List.sum_nil]; omega), by simp [encodeCalls]⟩
  | cons f fs ih =>
    obtain ⟨hf, hfs⟩ := List.forall_mem_cons.mp hfs
    rw [List.sum_cons]
    rcases encodeChunk_frameLeft hf hs with ⟨hr, hw, hle, hrest⟩ | ⟨hr, hw, hlen, hnext⟩
    · rw [encodeCalls_of_complete fs hr]
      refine ⟨iff_of_true rfl (by rw [← hw]; omega), ?_⟩
      rintro r ⟨⟩
      exact ⟨hw, hrest⟩
    · obtain ⟨hsome, hsyms⟩ := ih hfs hnext
      rw [encodeCalls_of_memFull fs hr, Option.isSome_map, hsome, ← hw, List.length_append, hlen]
      refine ⟨(Nat.add_le_add_iff_left).symm, fun r hr => ?_⟩
      obtain ⟨r', hr', rfl⟩ := Option.mem_map.mp hr
      obtain ⟨hw', hrest⟩ := hsyms r' hr'
      exact ⟨congrArg _ hw', hrest⟩

/-- Settles O33: from rest the frame left is the whole frame. -/
theorem frameIntegrity : Obligations.FrameIntegrity := by
  unfold Obligations.FrameIntegrity
  intro s fs ws t hn hrest hfs h
  rw [← Device.frameLeft_atRest hrest]
  exact (encodeCalls_frameLeft hfs (.of_atRest hn hrest)).2 (ws, t) h

/-- Settles O34: the budgets add up to the frame exactly if there are enough of them. -/
theorem invocationCount : Obligations.InvocationCount := by
  unfold Obligations.InvocationCount
  intro s k hn hrest hk
  have hsome : ∀ fs : List Nat, (∀ f ∈ fs, 1 ≤ f) →
      ((encodeCalls fs s).isSome = true ↔ 8 * (3 * s.dev.numLeds.toNat) + 1 ≤ fs.sum) := fun fs hfs => by
    rw [(encodeCalls_frameLeft hfs (.of_atRest hn hrest)).1, Device.frameLeft_atRest hrest,
      (frameSymbolOrder s.dev s.mem).1]
  have hcalls : ∀ n, (8 * (3 * s.dev.numLeds.toNat) + 1 + (k - 1)) / k ≤ n ↔
      8 * (3 * s.dev.numLeds.toNat) + 1 ≤ n * k := fun n => by
    rw [← Nat.add_sub_assoc hk, ← Nat.ceilDiv_eq_add_pred_div, ceilDiv_le_iff_le_mul hk, Nat.mul_comm k]
  dsimp only
  refine ⟨fun n => ?_, fun fs hfs h => ?_⟩
  · rw [hsome _ fun f hf => (List.eq_of_mem_replicate hf).symm ▸ hk, hcalls, List.sum_replicate, smul_eq_mul]
  · rw [hcalls]
    exact ((hsome fs fun f hf => (hfs f hf).1).mp h).trans (List.sum_le_card_nsmul fs k fun f hf => (hfs f hf).2)

/-! ## ENC_RESET (41_strip_encoder_fsm.md R92) -/

/-- ENC_RESET's outcomes, in the order of its checks. -/
theorem exec_encReset (s : State) :
    exec .encReset s = .next
      (match s.devState with
      | .none => s.returnCode .invalidArgument
      | .destroyed => s.raiseDangling
      | .live =>
        if s.dev.chState = .transmitting then s.returnCode .hardwareBusy
        else (((s.setBytesCursor 0).setCopyCursor 0).setEncState .sendPixels).returnCode .ok) := by
  show execEncReset s = _
  unfold execEncReset withDevice
  cases s.devState with
  | none | destroyed => rfl
  | live =>
    dsimp only
    split <;> rfl

/-- Settles O35: RESULT, HOST_SUB and HOST_POS are what a finished command writes. -/
theorem encResetResult : Obligations.EncResetResult := by
  unfold Obligations.EncResetResult
  exact ⟨by decide, exec_encReset⟩

/-! ## The dead cursor (41_strip_encoder_fsm.md R93) -/

/-- A transaction begins owing what the encoder has left. -/
theorem State.owed_startFrame (s : State) : s.startFrame.owed = s.dev.frameLeft s.mem := by
  rw [State.owed, State.unencoded_eq_frameLeft rfl]
  cases he : s.dev.encState with
  | sendPixels =>
    rw [Device.frameLeft_sendPixels he, Device.frameLeft_sendPixels (d := s.startFrame.dev) he,
      symsFrom_congr s.dev s.startFrame.dev rfl rfl]
    rfl
  | sendReset =>
    rw [Device.frameLeft_sendReset he, Device.frameLeft_sendReset (d := s.startFrame.dev) he]
    rfl

/-- A CH_TRANSMIT that brings the channel to TRANSMITTING has begun a frame, after its driver draw. -/
theorem exec_chTransmit_starts {s t : State} (h : exec (.chTransmit 0#8) s = .next t) (hs : s.transmitting = false)
    (ht : t.transmitting = true) : t = s.driverFails.2.startFrame.returnCode .ok := by
  have h : finish (chTransmit 0#8 s) = .next t := h
  have idle : ∀ u, u.devState = s.devState → u.dev = s.dev → u ≠ t := by
    rintro u hu hd rfl
    rw [State.transmitting, hu, hd] at ht
    exact Bool.eq_false_iff.mp hs ht
  rcases chTransmit_cases 0#8 s with ⟨_, e⟩ | ⟨_, e⟩ | ⟨_, _, e⟩ | ⟨_, _, _, e⟩ | ⟨_, _, _, e⟩ | ⟨_, _, _, e⟩ |
    ⟨_, _, _, _, e⟩ | ⟨_, _, _, _, e⟩ <;> rw [e] at h <;> injection h with h
  case inr.inr.inr.inr.inr.inr.inr => exact h.symm
  all_goals exact absurd h (idle _ (by simp) (by simp))

/-- Settles O36: the frame begins with the encoder where it was. -/
theorem transmitResumesDeadCursor : Obligations.TransmitResumesDeadCursor := by
  unfold Obligations.TransmitResumesDeadCursor
  intro s t h hs ht
  obtain rfl := exec_chTransmit_starts h hs ht
  obtain ⟨i, n, hdrawn⟩ := s.drawn_driverFails
  rw [hdrawn]
  refine ⟨rfl, rfl, (State.owed_startFrame _).trans ?_⟩
  show s.dev.frameLeft s.mem = _
  cases he : s.dev.encState with
  | sendPixels => exact Device.frameLeft_eq_drop he
  | sendReset => exact Device.frameLeft_sendReset he

end Sys2Proof.Machine
end

section
/-! SUPPORT. The frame that REFRESH and the painting commands send (41_strip_encoder_fsm.md R90, 43_strip_device.md
R117 to R120): the engine's part of a transaction, then the sub-steps E, T, W and D around it. -/

namespace Sys2Proof.Machine

/-! ## Runs -/

/-- A run that takes a step and goes on. -/
theorem run_succ (M : Host.Core) {s t : M.State} (h : M.step s = .next t) (n : Nat) : M.run (n + 1) s = M.run n t := by
  rw [Host.Core.run, h]

/-- Some run of at most `k` steps from `s` ends in a state that meets `P`. -/
def Reaches (P : State → Prop) (k : Nat) (s : State) : Prop :=
  ∃ n t, n ≤ k ∧ Host.Core.run Sys2Proof.core n s = .next t ∧ P t

theorem Reaches.here {P : State → Prop} {s : State} (h : P s) : Reaches P 0 s := ⟨0, s, Nat.le_refl 0, rfl, h⟩

theorem Reaches.mono {P : State → Prop} {j k : Nat} {s : State} (h : Reaches P j s) (hjk : j ≤ k) : Reaches P k s := by
  obtain ⟨n, t, hn, hrun, ht⟩ := h
  exact ⟨n, t, hn.trans hjk, hrun, ht⟩

theorem Reaches.step {P : State → Prop} {k : Nat} {s t : State} (h : step s = .next t) (ht : Reaches P k t) :
    Reaches P (k + 1) s := by
  obtain ⟨n, u, hn, hrun, hu⟩ := ht
  exact ⟨n + 1, u, Nat.succ_le_succ hn, (run_succ Sys2Proof.core h n).trans hrun, hu⟩

/-! ## Which turn a step takes -/

/-- The invariant does not depend on the draws to come. -/
theorem State.Drawn.inv {s u : State} (h : s.Drawn u) (hs : s.Inv) : u.Inv := by
  obtain ⟨hdev, hpin, hhost⟩ := State.inv_iff.mp hs
  exact State.inv_iff.mpr ⟨h.sameBlock.devInv hdev, h.sameBlock.pinInv hpin, h.hostInv hhost⟩

/-- An enabled turn is enabled after any draws. -/
theorem State.Drawn.turnEnabled {s u : State} (h : s.Drawn u) (v : Turn) : u.turnEnabled v = s.turnEnabled v := by
  obtain ⟨i, d, rfl⟩ := h
  cases v <;> rfl

/-- Where a turn is enabled, one is picked. -/
theorem exists_pickTurn {s : State} {v : Turn} (h : s.turnEnabled v = true) : ∃ p, s.pickTurn = some p := by
  have hmem := State.mem_enabledTurns.mpr h
  unfold State.pickTurn
  split
  next hnil => simp [hnil] at hmem
  next => exact ⟨_, rfl⟩
  next => exact ⟨_, rfl⟩

/-- An enabled engine turn has a next state. -/
theorem runTurn_engine_next {s : State} {u : Turn} (hu : u ≠ .host) (h : s.turnEnabled u = true) :
    ∃ t, runTurn u s = .next t := by
  cases u with
  | host => exact absurd rfl hu
  | engChunk => exact ⟨_, execEngChunk_eq_next.mpr ⟨h, rfl⟩⟩
  | engEmit => exact ⟨_, execEngEmit_eq_next.mpr ⟨h, rfl⟩⟩
  | engDone => exact ⟨_, execEngDone_eq_next.mpr ⟨h, rfl⟩⟩

/-- While a transaction is in flight the engine has an enabled step (42_transmit_channel.md R105). -/
theorem exists_engine_enabled {s : State} (hs : s.dev.Inv) (ht : s.transmitting = true) :
    ∃ u, u ≠ .host ∧ s.turnEnabled u = true := by
  have hk : 0 < s.dev.memBlock.toNat := Nat.pos_of_ne_zero fun h => hs.capacity (BitVec.eq_of_toNat_eq h)
  rcases hb : s.dev.memblk with _ | ⟨w, rest⟩
  · cases hd : s.dev.encDone with
    | true => exact ⟨.engDone, nofun, by simp [State.turnEnabled, State.doneEnabled, ht, hd, hb]⟩
    | false =>
      exact ⟨.engChunk, nofun, by simp [State.turnEnabled, State.chunkEnabled, State.roomForChunk, ht, hd, hb, hk]⟩
  · exact ⟨.engEmit, nofun, by simp [State.turnEnabled, State.emitEnabled, ht, hb]⟩

/-- A step while a transaction is in flight: the host's turn or an engine step, after the draw that picked it. -/
theorem step_of_transmitting {s : State} (hs : s.dev.Inv) (ht : s.transmitting = true) :
    ∃ u, s.Drawn u ∧
      (u.hostEnabled = true ∧ step s = hostTurn u ∨ ∃ t, step s = .next t ∧ EngineStep u t) := by
  obtain ⟨v, -, hv⟩ := exists_engine_enabled hs ht
  obtain ⟨⟨turn, u⟩, hp⟩ := exists_pickTurn hv
  obtain ⟨hen, hu⟩ := pickTurn_cases hp
  have hdrawn : s.Drawn u := by
    rcases hu with rfl | rfl
    · exact .refl _
    · exact s.drawn_draw
  have hstep := step_of_pickTurn hp
  rw [← hdrawn.turnEnabled] at hen
  refine ⟨u, hdrawn, ?_⟩
  by_cases hh : turn = .host
  · subst hh
    exact .inl ⟨hen, hstep⟩
  · obtain ⟨t, hrun⟩ := runTurn_engine_next hh hen
    exact .inr ⟨t, hstep.trans hrun, engineTurn_cases hh hrun⟩

/-- Outside a transaction the engine has no step, so an enabled host runs its command. -/
theorem step_of_idle {s : State} {i : Instr} (ht : s.transmitting = false) (he : s.hostEnabled = true)
    (hi : s.currentCommand = some i) : step s = exec i s := by
  have honly : s.enabledTurns = [.host] := by
    simp [State.enabledTurns, State.turnEnabled, State.chunkEnabled, State.emitEnabled, State.doneEnabled, ht, he]
  obtain ⟨w, ha, hd⟩ := State.currentCommand_eq_some hi
  exact (step_of_pickTurn (State.pickTurn_of_single honly)).trans (hostTurn_of_command ha hd)

/-! ## The engine's part of a transaction (42_transmit_channel.md R102 to R105) -/

/-- The chunks and emits a transaction takes at most: a chunk encodes a symbol, and each symbol owed is emitted. -/
def State.engineWork (s : State) : Nat := s.unencoded.length + s.owed.length

theorem State.Drawn.engineWork {s u : State} (h : s.Drawn u) : u.engineWork = s.engineWork := by
  obtain ⟨i, d, rfl⟩ := h
  rfl

/-- An enabled chunk has a budget (42_transmit_channel.md R102). -/
theorem one_le_chunkBudget {s : State} (hk : s.dev.memBlock ≠ 0#16) : 1 ≤ s.chunkBudget.1 := by
  unfold State.chunkBudget
  split
  · exact Nat.pos_of_ne_zero fun h => hk (BitVec.eq_of_toNat_eq h)
  · exact Nat.le_add_right 1 _

/-- A chunk encodes at least one symbol and owes the same. -/
theorem engineWork_runChunk {f : Nat} {s : State} (hf : 1 ≤ f) (hs : s.dev.Encoding) (hd : s.dev.encDone = false) :
    (runChunk f s).engineWork < s.engineWork := by
  have howed := runChunk_owed f hd hs.copy hs.cursor.le
  have hpushed := ((hs.encodeCase f).pushed_length hf).1
  have hblock : (runChunk f s).dev.memblk = s.dev.memblk ++ (encodeChunk f s).pushed := by
    rw [← encodeChunk_memblk, runChunk_eq]
    split <;> rfl
  have hlen := congrArg List.length howed
  rw [State.owed, State.owed, hblock, List.length_append, List.length_append, List.length_append] at hlen
  rw [State.engineWork, State.engineWork, howed]
  omega

/-- An engine step brings the transaction on and loses no symbol, or it is ENG_DONE and ends it. -/
theorem EngineStep.transaction {s t : State} (h : EngineStep s t) (hs : s.dev.Inv) :
    (t.transmitting = true ∧ t.wire ++ t.owed.map .sym = s.wire ++ s.owed.map .sym ∧ t.engineWork < s.engineWork) ∨
      (t = s.frameBoundary .enabled .frameEnd ∧ s.owed = [] ∧ s.dev.atRest) := by
  cases h with
  | chunk he =>
    obtain ⟨ht, hd, -⟩ := State.chunkEnabled_iff.mp he
    have hf := one_le_chunkBudget hs.capacity
    have hdrawn := s.drawn_chunkBudget
    have hdev := hdrawn.sameBlock.dev
    have howed : (runChunk s.chunkBudget.1 s.chunkBudget.2).owed = s.owed :=
      (runChunk_owed _ (hdev ▸ hd) (hdev ▸ hs.copy) (hdev ▸ hs.cursor.le)).trans hdrawn.owed
    have hwork := engineWork_runChunk hf (hdev ▸ hs.encoding) (hdev ▸ hd)
    rw [hdrawn.engineWork] at hwork
    obtain ⟨e, b, c, k, m, i, n, hframe⟩ := runChunk_frame s
    refine .inl ⟨by rw [hframe]; exact ht, ?_, hwork⟩
    rw [howed, hframe]
  | emit w rest ht hb =>
    have howed : ((s.setMemblk rest).emit (.sym w)).owed = rest ++ s.unencoded :=
      congrArg (rest ++ ·) (s.unencoded_setMemblk rest)
    have hunencoded : ((s.setMemblk rest).emit (.sym w)).unencoded = s.unencoded := s.unencoded_setMemblk rest
    refine .inl ⟨ht, ?_, ?_⟩
    · rw [howed, State.owed, hb]
      simp
    · rw [State.engineWork, State.engineWork, howed, hunencoded, State.owed, hb]
      simp
  | done ht hd hb =>
    obtain ⟨-, hsend, hcursor⟩ := hs.done hd
    refine .inr ⟨runDone_eq hb, ?_, hsend, hcursor, hs.copy⟩
    rw [State.owed, hb, State.unencoded_of_done hd]
    rfl

/-! ## What a transaction leaves alone -/

/-- `d` with its channel DISABLED, its encoder at rest and its memory block empty. -/
def Device.settled (d : Device) : Device :=
  { d with
    chState := .disabled, encState := .sendPixels, encDone := false, bytesCursor := 0, copyCursor := 0, memblk := [] }

/-- `s` without what a multi-step command moves on its way: the channel, the encoder, the wire, HOST_SUB, HOST_HELD and
the draws to come. -/
def State.settled (s : State) : State :=
  { s with dev := s.dev.settled, wire := [], hostSub := .start, hostHeld := false, inputs := [], drawCount := 0 }

/-- A DISABLED device whose encoder is at rest is settled. -/
theorem Device.settled_eq_self {d : Device} (hd : d.Inv) (hc : d.chState = .disabled) (hr : d.atRest) :
    d.settled = d := by
  have hidle : d.chState ≠ .transmitting := by simp [hc]
  have hblock := hd.idle hidle
  have hdone := hd.encDone_of_idle hidle
  obtain ⟨hs, hb, hk⟩ := hr
  clear hd hidle
  cases d
  dsimp only at *
  subst hc hs hdone hb hk hblock
  rfl

section
variable (s : State)

@[simp] theorem State.settled_setChState (c : ChState) : (s.setChState c).settled = s.settled := rfl
@[simp] theorem State.settled_setSub (n : HostSub) : (s.setSub n).settled = s.settled := rfl
@[simp] theorem State.settled_setHeld (b : Bool) : (s.setHeld b).settled = s.settled := rfl
@[simp] theorem State.settled_startFrame : s.startFrame.settled = s.settled := by
  rw [State.startFrame_eq]
  rfl

end

theorem State.Drawn.settled {s u : State} (h : s.Drawn u) : u.settled = s.settled := by
  obtain ⟨i, d, rfl⟩ := h
  rfl

theorem EngineStep.settled {s t : State} (h : EngineStep s t) : t.settled = s.settled := by
  cases h with
  | chunk =>
    obtain ⟨e, n, c, k, b, i, j, hframe⟩ := runChunk_frame s
    rw [hframe]
    rfl
  | emit => rfl
  | done => rfl

/-! ## The channel operations that succeed (42_transmit_channel.md R97 to R100) -/

section
variable {s : State}

/-- Where the driver cannot fail, its guard lets every command through with no draw (92 D19). -/
theorem withDriver_of_sound (k : State → CmdResult) (h : s.platform.driverMayFail = false) : withDriver s k = k s := by
  rw [withDriver, s.driverFails_of_sound h, if_neg Bool.false_ne_true]

theorem withChannel_of_ne_deleted (k : CmdResult) (h : s.dev.chState ≠ .deleted) : withChannel s k = k := if_neg h

theorem chEnable_of_disabled (hl : s.devState = .live) (hc : s.dev.chState = .disabled)
    (hd : s.platform.driverMayFail = false) : chEnable s = .done .ok (s.setChState .enabled) := by
  rw [chEnable, withDevice_live _ hl, withChannel_of_ne_deleted _ (by simp [hc]), if_pos hc, withDriver_of_sound _ hd]

theorem chTransmit_of_enabled (hl : s.devState = .live) (hc : s.dev.chState = .enabled)
    (hd : s.platform.driverMayFail = false) : chTransmit 0#8 s = .done .ok s.startFrame := by
  rw [chTransmit, withDevice_live _ hl, if_pos rfl, withChannel_of_ne_deleted _ (by simp [hc]), hc]
  exact withDriver_of_sound _ hd

theorem chDisable_of_enabled (hl : s.devState = .live) (hc : s.dev.chState = .enabled)
    (hd : s.platform.driverMayFail = false) : chDisable s = .done .ok (s.setChState .disabled) := by
  rw [chDisable, withDevice_live _ hl, withChannel_of_ne_deleted _ (by simp [hc]), if_neg (by simp [hc]),
    withDriver_of_sound _ hd, State.abortFrame_of_idle (by simp [hc])]

/-- A wait on an ENABLED channel is over, for a held host as for one that is not. -/
theorem chWait_of_enabled (w : Word) (hl : s.devState = .live) (hc : s.dev.chState = .enabled) :
    chWait w s = .done .ok (s.setHeld false) := by
  cases hh : s.hostHeld with
  | true => simp [chWait, heldWait, hh, hc]
  | false =>
    have hsame : s.setHeld false = s := by rw [State.setHeld, ← hh]
    rw [hsame]
    simp [chWait, hh, hl, withChannel, hc]

/-- A wait on a transaction begins to hold, unless its timeout is 0. -/
theorem chWait_of_transmitting {w : Word} (hw : w ≠ 0#32) (hl : s.devState = .live) (hc : s.dev.chState = .transmitting)
    (hh : s.hostHeld = false) : chWait w s = .hold (s.setHeld true) := by
  simp [chWait, hh, hl, withChannel, hc, hw]

end

/-! ## The sub-steps of a multi-step command (43_strip_device.md R117) -/

/-- The host is in the multi-step command `i` on a LIVE device, and its driver cannot fail. -/
structure Refreshing (i : Instr) (s : State) : Prop where
  inv : s.Inv
  live : s.devState = .live
  command : s.currentCommand = some i
  multi : multiStep i = true
  running : s.hostStopped = false
  sound : s.platform.driverMayFail = false

section
variable {i : Instr} {s t u : State}

theorem Refreshing.of_settled (h : Refreshing i s) (ht : t.Inv) (he : t.settled = s.settled) : Refreshing i t where
  inv := ht
  live := (congrArg State.devState he).trans h.live
  command := (congrArg State.currentCommand he).trans h.command
  multi := h.multi
  running := (congrArg State.hostStopped he).trans h.running
  sound := (congrArg (Platform.driverMayFail ∘ State.platform) he).trans h.sound

/-- A step that leaves the rest alone keeps the host in its command. -/
theorem Refreshing.step (h : Refreshing i s) (hstep : Machine.step s = .next t) (he : t.settled = s.settled) :
    Refreshing i t :=
  h.of_settled (stepKeepsInvariant s t h.inv hstep) he

theorem Refreshing.hostPos_lt (h : Refreshing i s) : s.hostPos < s.program.length := by
  obtain ⟨w, ha, -⟩ := State.currentCommand_eq_some h.command
  exact (List.getElem?_eq_some_iff.mp ha).1

/-- A multi-step command waits without a timeout (43_strip_device.md R117). -/
theorem Refreshing.heldTimeout (h : Refreshing i s) : s.heldTimeout = infiniteTimeout := by
  obtain ⟨w, ha, hd⟩ := State.currentCommand_eq_some h.command
  have hm := h.multi
  simp only [State.heldTimeout, ha, hd]
  cases i with
  | chWait => simp [multiStep] at hm
  | _ => rfl

/-- Outside a transaction the next step is the command's next sub-step. -/
theorem Refreshing.step_idle (h : Refreshing i s) (hc : s.dev.chState ≠ .transmitting) : Machine.step s = exec i s := by
  have hlift : s.holdLifts = true := (State.holdLifts_infinite_iff h.heldTimeout).mpr hc
  refine step_of_idle (State.transmitting_eq_false (.inr hc)) ?_ h.command
  simp [State.hostEnabled, h.hostPos_lt, h.running, hlift]

/-- Once begun, its sub-steps are those of REFRESH. -/
theorem Refreshing.step_started (h : Refreshing i s) (hs : s.hostSub ≠ .start) (hc : s.dev.chState ≠ .transmitting) :
    Machine.step s = refreshStep s :=
  (h.step_idle hc).trans (exec_of_started h.multi hs)

/-- Sub-step E on a DISABLED channel. -/
theorem Refreshing.step_enable (h : Refreshing i s) (hs : s.hostSub = .enable ∨ s.hostSub = .start ∧ i = .refresh)
    (hc : s.dev.chState = .disabled) :
    Machine.step s = .next ((s.setChState .enabled).setSub .transmit) := by
  have hidle : s.dev.chState ≠ .transmitting := by simp [hc]
  have hstep : Machine.step s = continueTo .transmit (chEnable s) := by
    rcases hs with hs | ⟨hs, rfl⟩
    · rw [h.step_started (by simp [hs]) hidle, refreshStep, hs]
    · rw [h.step_idle hidle]
      show refreshStep s = _
      rw [refreshStep, hs]
  rw [hstep, chEnable_of_disabled h.live hc h.sound, continueTo_ok]

/-- Sub-step T on an ENABLED channel. -/
theorem Refreshing.step_transmit (h : Refreshing i s) (hs : s.hostSub = .transmit) (hc : s.dev.chState = .enabled) :
    Machine.step s = .next (s.startFrame.setSub .wait) := by
  have hstep : Machine.step s = continueTo .wait (chTransmit 0#8 s) := by
    rw [h.step_started (by simp [hs]) (by simp [hc]), refreshStep, hs]
  rw [hstep, chTransmit_of_enabled h.live hc h.sound, continueTo_ok]

/-- The end of sub-step W, on a channel that has left TRANSMITTING, whether the host was held or not. -/
theorem Refreshing.step_wait (h : Refreshing i s) (hs : s.hostSub = .wait) (hc : s.dev.chState = .enabled) :
    Machine.step s = .next ((s.setHeld false).setSub .disable) := by
  have hstep : Machine.step s = continueTo .disable (chWait infiniteTimeout s) := by
    rw [h.step_started (by simp [hs]) (by simp [hc]), refreshStep, hs]
  rw [hstep, chWait_of_enabled _ h.live hc, continueTo_ok]

/-- Sub-step D on an ENABLED channel ends the command. -/
theorem Refreshing.step_disable (h : Refreshing i s) (hs : s.hostSub = .disable) (hc : s.dev.chState = .enabled) :
    Machine.step s = .next ((s.setChState .disabled).returnCode .ok) := by
  have hstep : Machine.step s = finish (chDisable s) := by
    rw [h.step_started (by simp [hs]) (by simp [hc]), refreshStep, hs]
  rw [hstep, chDisable_of_enabled h.live hc h.sound, finish_done]

/-- The host's turn at sub-step W while a transaction is in flight: the wait begins to hold. A held host has none. -/
theorem Refreshing.hostTurn_wait (h : Refreshing i s) (hs : s.hostSub = .wait) (hc : s.dev.chState = .transmitting)
    (he : s.hostEnabled = true) : s.hostHeld = false ∧ hostTurn s = .next (s.setHeld true) := by
  have hheld : s.hostHeld = false := Bool.eq_false_iff.mpr fun hh => by
    rw [State.hostEnabled_of_held hh h.hostPos_lt h.running, State.holdLifts_infinite_iff h.heldTimeout] at he
    exact he hc
  obtain ⟨w, ha, hd⟩ := State.currentCommand_eq_some h.command
  have hturn : hostTurn s = continueTo .disable (chWait infiniteTimeout s) := by
    rw [hostTurn_of_command ha hd, exec_of_started h.multi (by simp [hs]), refreshStep, hs]
  rw [hturn, chWait_of_transmitting (by decide) h.live hc hheld, continueTo_hold]
  exact ⟨hheld, rfl⟩

/-! ## A transaction inside a multi-step command -/

/-- The channel is TRANSMITTING in sub-step W of `i`, with `es` on the wire once what is owed has been sent; all else is
as in `s`. -/
structure Sending (i : Instr) (s : State) (es : List WireEvent) (u : State) : Prop where
  refreshing : Refreshing i u
  settled : u.settled = s.settled
  sub : u.hostSub = .wait
  transmitting : u.transmitting = true
  wire : u.wire ++ u.owed.map .sym = es

/-- The transaction has ended, with `es` on the wire; all else is as in `s`. -/
structure Sent (i : Instr) (s : State) (es : List WireEvent) (u : State) : Prop where
  refreshing : Refreshing i u
  settled : u.settled = s.settled
  sub : u.hostSub = .wait
  dev : u.dev = { u.dev.settled with chState := .enabled }
  wire : u.wire = es

/-- The command has returned OK with `es` on the wire; all else is as in `s`. -/
def Refreshed (s : State) (es : List WireEvent) (t : State) : Prop :=
  ∃ is k, t =
    { s.settled with wire := es, result := .ok, hostPos := s.hostPos + 1, inputs := is, drawCount := k }

variable {es : List WireEvent}

/-- After the transaction come the end of W, and D. -/
theorem Sent.reaches (h : Sent i s es u) : Reaches (Refreshed s es) 2 u := by
  have hc : u.dev.chState = .enabled := by rw [h.dev]
  have hwait := h.refreshing.step_wait h.sub hc
  have hdisable := (h.refreshing.step hwait rfl).step_disable rfl hc
  refine (Reaches.here ⟨u.inputs, u.drawCount, ?_⟩).step hdisable |>.step hwait
  have hdev : { u.dev with chState := .disabled } = u.dev.settled := by rw [h.dev]; rfl
  have hpos := congrArg State.hostPos h.settled
  change u.hostPos = s.hostPos at hpos
  rw [← h.settled, ← h.wire, ← hpos, State.settled, ← hdev]
  rfl

/-- The steps before ENG_DONE: the engine's, and the host's if it is not held yet. -/
def State.sendingSteps (s : State) : Nat := s.engineWork + if s.hostHeld then 0 else 1

theorem Sending.drawn (h : Sending i s es u) (hu : u.Drawn t) : Sending i s es t := by
  obtain ⟨href, hsettled, hsub, htrans, hwire⟩ := h
  have href := href.of_settled (hu.inv href.inv) hu.settled
  obtain ⟨j, d, rfl⟩ := hu
  exact ⟨href, hsettled, hsub, htrans, hwire⟩

/-- The wait begins to hold. -/
theorem Sending.hold (h : Sending i s es u) (hheld : u.hostHeld = false) (ht : (u.setHeld true).Inv) :
    Sending i s es (u.setHeld true) ∧ (u.setHeld true).sendingSteps < u.sendingSteps := by
  refine ⟨⟨h.refreshing.of_settled ht (by simp), by simpa using h.settled, h.sub, h.transmitting, h.wire⟩, ?_⟩
  rw [State.sendingSteps, State.sendingSteps, hheld]
  exact Nat.lt_succ_self _

/-- The engine brings the transaction on, or ends it. -/
theorem Sending.engine (h : Sending i s es u) (he : EngineStep u t) (ht : t.Inv) :
    Sending i s es t ∧ t.sendingSteps < u.sendingSteps ∨ Sent i s (es ++ [.frameEnd]) t := by
  have href := h.refreshing.of_settled ht he.settled
  have hsettled := he.settled.trans h.settled
  obtain ⟨d, ws, j, n, hframe⟩ := he.frame
  have hsub : t.hostSub = .wait := by rw [hframe]; exact h.sub
  have hheld : t.hostHeld = u.hostHeld := by rw [hframe]
  rcases he.transaction (h.refreshing.inv.device h.refreshing.live) with
    ⟨htrans, hwire, hlt⟩ | ⟨rfl, howed, hs, hb, hk⟩
  · refine .inl ⟨⟨href, hsettled, hsub, htrans, hwire.trans h.wire⟩, ?_⟩
    rw [State.sendingSteps, State.sendingSteps, hheld]
    exact Nat.add_lt_add_right hlt _
  · refine .inr ⟨href, hsettled, hsub, by simp [Device.settled, hs, hb, hk], ?_⟩
    rw [State.frameBoundary_wire, ← h.wire, howed, List.map_nil, List.append_nil]

/-- A step while sending: it brings the wait or the transaction on, or it ends the transaction. -/
theorem Sending.step (h : Sending i s es u) :
    ∃ t, Machine.step u = .next t ∧
      (Sending i s es t ∧ t.sendingSteps < u.sendingSteps ∨ Sent i s (es ++ [.frameEnd]) t) := by
  have hinv := h.refreshing.inv
  obtain ⟨v, hdrawn, hturn⟩ := step_of_transmitting (hinv.device h.refreshing.live) h.transmitting
  have hv := h.drawn hdrawn
  have hsteps : v.sendingSteps = u.sendingSteps := by obtain ⟨j, d, rfl⟩ := hdrawn; rfl
  rw [← hsteps]
  obtain ⟨hen, hstep⟩ | ⟨t, hstep, heng⟩ := hturn
  · obtain ⟨hheld, hhold⟩ := hv.refreshing.hostTurn_wait hv.sub (State.transmitting_iff.mp hv.transmitting).2 hen
    have hstep := hstep.trans hhold
    exact ⟨_, hstep, .inl (hv.hold hheld (stepKeepsInvariant u _ hinv hstep))⟩
  · exact ⟨t, hstep, hv.engine heng (stepKeepsInvariant u t hinv hstep)⟩

/-- Whatever the interleaving, the transaction ends and the command returns. -/
theorem Sending.reaches (h : Sending i s es u) : Reaches (Refreshed s (es ++ [.frameEnd])) (u.sendingSteps + 3) u := by
  induction hn : u.sendingSteps using Nat.strong_induction_on generalizing u with
  | _ n ih =>
    obtain ⟨t, hstep, ⟨ht, hlt⟩ | hsent⟩ := h.step
    · exact ((ih _ (hn ▸ hlt) ht rfl).step hstep).mono (by omega)
    · exact (hsent.reaches.step hstep).mono (by omega)

/-- A transaction begins with its whole work to do. -/
theorem State.engineWork_startFrame (s : State) : s.startFrame.engineWork = 2 * (s.dev.frameLeft s.mem).length := by
  have hunencoded : s.startFrame.unencoded = s.dev.frameLeft s.mem := s.owed_startFrame
  rw [State.engineWork, hunencoded, State.owed_startFrame, Nat.two_mul]

/-- From sub-step T on, the command sends what the encoder has left. -/
theorem Refreshing.reaches_of_transmit (h : Refreshing i s) (hs : s.hostSub = .transmit)
    (hc : s.dev.chState = .enabled) :
    Reaches (Refreshed s (s.wire ++ .frameStart :: (s.dev.frameLeft s.mem).map .sym ++ [.frameEnd]))
      (2 * (s.dev.frameLeft s.mem).length + 5) s := by
  have htransmit := h.step_transmit hs hc
  have hwaiting := h.step htransmit (by simp)
  have howed : (s.startFrame.setSub .wait).owed = s.dev.frameLeft s.mem := s.owed_startFrame
  have hwork : (s.startFrame.setSub .wait).engineWork = 2 * (s.dev.frameLeft s.mem).length := s.engineWork_startFrame
  have hsending : Sending i s (s.wire ++ .frameStart :: (s.dev.frameLeft s.mem).map .sym) (s.startFrame.setSub .wait) :=
    ⟨hwaiting, by simp, rfl, by simp [State.transmitting, h.live], by rw [howed]; simp⟩
  refine (hsending.reaches.step htransmit).mono ?_
  rw [State.sendingSteps, hwork]
  split <;> omega

/-- CH_STATE is no part of a frame. -/
theorem frameSyms_setChState (s : State) (c : ChState) :
    frameSyms (s.setChState c).dev s.mem = frameSyms s.dev s.mem := by
  rw [frameSyms_eq_symsFrom, frameSyms_eq_symsFrom, symsFrom_congr s.dev (s.setChState c).dev rfl rfl]
  rfl

/-- `t` is `s` after a multi-step command that sent the frame of the pixel buffer and returned OK. -/
def FrameSent (s t : State) : Prop :=
  ∃ is k, t =
    { s with
      wire := s.wire ++ (.frameStart :: (frameSyms s.dev s.mem).map .sym ++ [.frameEnd])
      result := .ok, hostSub := .start, hostPos := s.hostPos + 1, inputs := is, drawCount := k }

/-- From sub-step E on, on a DISABLED channel with the encoder at rest, the command sends the frame of the pixel buffer
and returns OK; all else is as before. -/
theorem Refreshing.reaches (h : Refreshing i s) (hs : s.hostSub = .enable ∨ s.hostSub = .start ∧ i = .refresh)
    (hc : s.dev.chState = .disabled) (hr : s.dev.atRest) :
    Reaches (FrameSent s) (2 * (frameSyms s.dev s.mem).length + 6) s := by
  have henable := h.step_enable hs hc
  have hsent := (h.step henable (by simp)).reaches_of_transmit rfl rfl
  have hleft : ((s.setChState .enabled).setSub .transmit).dev.frameLeft s.mem = frameSyms s.dev s.mem :=
    (Device.frameLeft_atRest (d := (s.setChState .enabled).dev) hr).trans (frameSyms_setChState s .enabled)
  have hdev : s.dev.settled = s.dev := Device.settled_eq_self (h.inv.device h.live) hc hr
  have hheld : s.hostHeld = false := Bool.eq_false_iff.mpr fun hh => by
    obtain ⟨-, hch, -⟩ := h.inv.held hh
    simp [hc] at hch
  obtain ⟨n, t, hn, hrun, is, k, rfl⟩ := hsent.step henable
  have hmem : ((s.setChState .enabled).setSub .transmit).mem = s.mem := rfl
  rw [hmem, hleft] at hn hrun
  refine ⟨n, _, hn, hrun, is, k, ?_⟩
  rw [State.settled_setSub, State.settled_setChState, State.settled, hdev, ← hheld, List.append_assoc]
  rfl

end

/-- The painting sub-step of a multi-step command writes the pixel buffer and, outside a transaction, sets no FAULT bit
(20_memory.md R59). -/
theorem HostStep.painted {i : Instr} {s u : State} (h : HostStep i s u) (hs : s.hostSub = .start)
    (hu : u.hostSub = .enable) (hc : s.dev.chState ≠ .transmitting) :
    u = { s with mem := u.mem, hostSub := .enable } := by
  cases h with
  | paint vs =>
    have hrace : s.noteRace = s := by rw [State.noteRace, beq_false_of_ne hc, Bool.or_false]
    rw [hrace]
    rfl
  | _ => simp [hs] at hu

theorem hostIssuable_of_multiStep {i : Instr} (h : multiStep i = true) : i.hostIssuable = true := by
  cases i with
  | setAllPixels | setColour | refresh | clear => rfl
  | _ => simp [multiStep] at h

/-- Settles O58: REFRESH begins with sub-step E. -/
theorem refreshSendsOneFrame : Obligations.RefreshSendsOneFrame := by
  unfold Obligations.RefreshSendsOneFrame
  intro s hinv hl hc hr hsub hi hstop hsound
  obtain ⟨n, t, hn, hrun, is, k, rfl⟩ :=
    Refreshing.reaches ⟨hinv, hl, hi, rfl, hstop, hsound⟩ (.inr ⟨hsub, rfl⟩) hc hr
  rw [← hsub] at hrun
  exact ⟨n, is, k, hn, hrun⟩

/-- Settles O59: after the painting sub-step the command is a REFRESH at sub-step E, on the painted buffer. -/
theorem paintSendsOneFrame : Obligations.PaintSendsOneFrame := by
  unfold Obligations.PaintSendsOneFrame
  intro s u i hinv hl hc hr hsub hi hm _ hstop hsound hexec hu
  have hidle : s.dev.chState ≠ .transmitting := by simp [hc]
  have href : Refreshing i s := ⟨hinv, hl, hi, hm, hstop, hsound⟩
  have hstep := (href.step_idle hidle).trans hexec
  have huinv := stepKeepsInvariant s u hinv hstep
  have hpainted := (exec_host_cases (hostIssuable_of_multiStep hm) hexec).painted hsub hu hidle
  generalize u.mem = m at hpainted ⊢
  subst hpainted
  obtain ⟨n, t, hn, hrun, is, k, rfl⟩ :=
    (Refreshing.reaches ⟨huinv, hl, hi, hm, hstop, hsound⟩ (.inl rfl) hc hr).step hstep
  rw [← hsub] at hrun
  exact ⟨n, is, k, hn, hrun⟩

end Sys2Proof.Machine
end

section
/-! SUPPORT. The engine's side of 42_transmit_channel.md: what its steps leave alone (R102 to R104), that a transaction
the host leaves alone completes (R106), when each step is enabled and what it does, and that some turn is enabled until a
run ends (R105, 60_exceptions.md R129). -/

namespace Sys2Proof.Machine

/-! ## The frame of an engine step (42_transmit_channel.md R102 to R104) -/

/-- The engine takes its steps in a transaction only. -/
theorem EngineStep.transmitting {s t : State} (h : EngineStep s t) : s.transmitting = true := by
  cases h with
  | chunk he => exact (State.chunkEnabled_iff.mp he).1
  | emit w rest ht => exact ht
  | done ht => exact ht

/-- Settles O15: the frame of every engine step. -/
theorem engineStepFrame : Obligations.EngineStepFrame := by
  unfold Obligations.EngineStepFrame
  intro u s t hu h
  have he := engineTurn_cases hu h
  obtain ⟨d, es, i, n, hframe⟩ := he.frame
  exact ⟨by rw [hframe], he.transmitting⟩

/-! ## A transaction the host leaves alone (42_transmit_channel.md R104 to R106) -/

/-- Inside a transaction an engine step neither wakes the host nor stops it. -/
theorem EngineStep.hostEnabled {s t : State} (h : EngineStep s t) (ht : t.transmitting = true) :
    t.hostEnabled = s.hostEnabled := by
  obtain ⟨-, hs⟩ := State.transmitting_iff.mp h.transmitting
  obtain ⟨-, ht⟩ := State.transmitting_iff.mp ht
  obtain ⟨d, es, i, n, hframe⟩ := h.frame
  have htimeout : t.heldTimeout = s.heldTimeout := by rw [hframe]; rfl
  have hlift : t.holdLifts = s.holdLifts := by rw [State.holdLifts, State.holdLifts, htimeout, hs, ht]
  rw [State.hostEnabled, hlift, hframe]
  rfl

/-- In `u` the transaction in flight in `s` goes on and the host has no step; all but the engine's part is as in `s`. -/
structure InFlight (s u : State) : Prop where
  inv : u.Inv
  transmitting : u.transmitting = true
  waiting : u.hostEnabled = false
  settled : u.settled = s.settled
  wire : u.wire ++ u.owed.map .sym = s.wire ++ s.owed.map .sym

/-- In `t` the transaction in flight in `s` has put what it owed and FrameEnd on the wire, and the channel is ENABLED
with its encoder at rest; the pixel buffer, HOST_POS and RESULT are as in `s`. -/
def TransactionEnded (s t : State) : Prop :=
  t.wire = s.wire ++ s.owed.map .sym ++ [.frameEnd] ∧ t.dev.chState = .enabled ∧ t.dev.encDone = false ∧
    t.dev.memblk = [] ∧ t.dev.atRest ∧ t.mem = s.mem ∧ t.hostPos = s.hostPos ∧ t.result = s.result

section
variable {s t u : State}

theorem InFlight.drawn (h : InFlight s u) (hu : u.Drawn t) : InFlight s t := by
  have hinv := hu.inv h.inv
  have hsettled := hu.settled.trans h.settled
  obtain ⟨i, n, rfl⟩ := hu
  exact ⟨hinv, h.transmitting, h.waiting, hsettled, h.wire⟩

/-- The engine brings the transaction on, or ends it. -/
theorem InFlight.engine (h : InFlight s u) (he : EngineStep u t) (ht : t.Inv) :
    InFlight s t ∧ t.engineWork < u.engineWork ∨ TransactionEnded s t := by
  obtain ⟨hlive, -⟩ := State.transmitting_iff.mp h.transmitting
  have hsettled := he.settled.trans h.settled
  rcases he.transaction (h.inv.device hlive) with ⟨htrans, hwire, hlt⟩ | ⟨rfl, howed, hrest⟩
  · exact .inl ⟨⟨ht, htrans, (he.hostEnabled htrans).trans h.waiting, hsettled, hwire.trans h.wire⟩, hlt⟩
  · refine .inr ⟨?_, rfl, rfl, rfl, hrest, (congrArg State.mem hsettled :), (congrArg State.hostPos hsettled :),
      (congrArg State.result hsettled :)⟩
    rw [← h.wire, howed, List.map_nil, List.append_nil, State.frameBoundary_wire]

/-- While the transaction is in flight the next step is the engine's. -/
theorem InFlight.step (h : InFlight s u) :
    ∃ t, Machine.step u = .next t ∧ (InFlight s t ∧ t.engineWork < u.engineWork ∨ TransactionEnded s t) := by
  obtain ⟨hlive, -⟩ := State.transmitting_iff.mp h.transmitting
  obtain ⟨v, hdrawn, ⟨hen, -⟩ | ⟨t, hstep, he⟩⟩ := step_of_transmitting (h.inv.device hlive) h.transmitting
  · exact absurd ((h.drawn hdrawn).waiting) (by simp [hen])
  · rw [← hdrawn.engineWork]
    exact ⟨t, hstep, (h.drawn hdrawn).engine he (stepKeepsInvariant u t h.inv hstep)⟩

/-- Whatever chunks the engine takes, it ends the transaction with one step after its work. -/
theorem InFlight.reaches (h : InFlight s u) : Reaches (TransactionEnded s) (u.engineWork + 1) u := by
  induction hn : u.engineWork using Nat.strong_induction_on generalizing u with
  | _ n ih =>
    obtain ⟨t, hstep, ⟨ht, hlt⟩ | hended⟩ := h.step
    · exact ((ih _ (hn ▸ hlt) ht rfl).step hstep).mono (by omega)
    · exact ((Reaches.here hended).step hstep).mono (by omega)

/-- A symbol owed takes at most a chunk and an emit. -/
theorem State.engineWork_le (s : State) : s.engineWork ≤ 2 * s.owed.length := by
  rw [State.engineWork, State.owed, List.length_append]
  omega

end

/-- Settles O47: the engine's work on what is owed, then ENG_DONE. -/
theorem transactionCompletes : Obligations.TransactionCompletes := by
  unfold Obligations.TransactionCompletes
  intro s hinv htrans hhost
  have hflight : InFlight s s := ⟨hinv, htrans, hhost, rfl, rfl⟩
  exact hflight.reaches.mono (Nat.succ_le_succ s.engineWork_le)

/-! ## The engine's three steps (42_transmit_channel.md R102 to R104) -/

/-- The memory block has room for a chunk when empty under FULL_BLOCK, when not full under ANY_FREE. -/
theorem State.roomForChunk_iff (s : State) :
    s.roomForChunk = true ↔
      s.platform.chunkPolicy = .fullBlock ∧ s.dev.memblk = [] ∨
        s.platform.chunkPolicy = .anyFree ∧ s.dev.memblk.length < s.dev.memBlock.toNat := by
  cases hp : s.platform.chunkPolicy with
  | fullBlock => simp [State.roomForChunk, hp]
  | anyFree =>
    have hempty : s.dev.memblk = [] ∧ 0 < s.dev.memBlock.toNat → s.dev.memblk.length < s.dev.memBlock.toNat :=
      fun ⟨hb, hk⟩ => by simpa [hb] using hk
    simpa [State.roomForChunk, hp] using hempty

/-- A chunk is a call of ENCODE that sets ENC_DONE when it completes. -/
theorem runChunk_encDone (f : Nat) (s : State) :
    runChunk f s =
      { (encodeChunk f s).state with
        dev := { (encodeChunk f s).state.dev with
          encDone := decide ((encodeChunk f s).result = .complete) || (encodeChunk f s).state.dev.encDone } } := by
  rw [runChunk_eq]
  split
  next hr => simp only [hr, decide_true, Bool.true_or, State.setEncDone]
  next hr => simp only [hr, decide_false, Bool.false_or]

/-- Under FULL_BLOCK the budget is the block's capacity, with no draw. -/
theorem State.chunkBudget_fullBlock {s : State} (hp : s.platform.chunkPolicy = .fullBlock) :
    s.chunkBudget = (s.dev.memBlock.toNat, s) := by
  rw [State.chunkBudget, hp]

/-- Under ANY_FREE the budget is drawn among the free slots. -/
theorem State.chunkBudget_anyFree {s : State} (hp : s.platform.chunkPolicy = .anyFree) :
    s.chunkBudget = s.drawBudget s.dev.freeSlots := by
  rw [State.chunkBudget, hp]

/-- Settles O43: the budget is the one the policy gives. -/
theorem engChunkResult : Obligations.EngChunkResult := by
  unfold Obligations.EngChunkResult
  intro s
  have henabled : s.chunkEnabled = true ↔ s.devState = .live ∧ s.dev.chState = .transmitting ∧ s.dev.encDone = false ∧
      (s.platform.chunkPolicy = .fullBlock ∧ s.dev.memblk = [] ∨
        s.platform.chunkPolicy = .anyFree ∧ s.dev.memblk.length < s.dev.memBlock.toNat) := by
    rw [State.chunkEnabled_iff, State.transmitting_iff, State.roomForChunk_iff, and_assoc]
  refine ⟨henabled, fun h => ⟨s.chunkBudget.1, s.chunkBudget.2, fun hp => ?_, fun hp => ?_, ?_⟩⟩
  · rw [State.chunkBudget_fullBlock hp]
    exact ⟨rfl, rfl⟩
  · obtain ⟨-, -, -, ⟨hfull, -⟩ | ⟨-, hfree⟩⟩ := h
    · simp [hp] at hfull
    · rw [State.chunkBudget_anyFree hp]
      obtain ⟨hpos, hle⟩ := s.drawBudget_bounds s.dev.freeSlots (Nat.sub_pos_of_lt hfree)
      exact ⟨hpos, hle, rfl⟩
  · rw [← runChunk_encDone]
    exact execEngChunk_eq_next.mpr ⟨henabled.mpr h, rfl⟩

/-- ENG_EMIT is enabled in a transaction whose memory block holds a symbol (42_transmit_channel.md R103). -/
theorem State.emitEnabled_iff {s : State} :
    s.emitEnabled = true ↔ s.devState = .live ∧ s.dev.chState = .transmitting ∧ s.dev.memblk ≠ [] := by
  simp [State.emitEnabled, State.transmitting, and_assoc]

/-- ENG_DONE is enabled in a transaction encoded and emitted to the end (42_transmit_channel.md R104). -/
theorem State.doneEnabled_iff {s : State} :
    s.doneEnabled = true ↔
      s.devState = .live ∧ s.dev.chState = .transmitting ∧ s.dev.encDone = true ∧ s.dev.memblk = [] := by
  simp [State.doneEnabled, State.transmitting, and_assoc]

/-- Settles O45: each step completes where it is enabled. -/
theorem engEmitDoneResult : Obligations.EngEmitDoneResult := by
  unfold Obligations.EngEmitDoneResult
  refine ⟨fun s => State.emitEnabled_iff, fun s w rest hl hc hb => ?_, fun s => ⟨State.doneEnabled_iff, fun h => ?_⟩⟩
  · refine execEngEmit_eq_next.mpr ⟨State.emitEnabled_iff.mpr ⟨hl, hc, by simp [hb]⟩, ?_⟩
    rw [runEmit, hb]
    rfl
  · exact execEngDone_eq_next.mpr ⟨State.doneEnabled_iff.mpr h, rfl⟩

/-! ## Some turn is enabled before the end of a run (42_transmit_channel.md R105, 60_exceptions.md R129) -/

/-- A host command always has a next state: it neither stops the machine nor is refused. -/
theorem exec_host_next {i : Instr} (hi : i.hostIssuable = true) (s : State) : ∃ t, exec i s = .next t := by
  cases i with
  | create n p => exact ⟨_, exec_create n p s⟩
  | setPixel | destroy | encReset | chEnable | chTransmit | chWait | chDisable | chDelete => exact finish_next _
  | setAllPixels | setColour | clear => exact paintThenRefresh_next _ s
  | refresh => exact refreshStep_next s
  | encode | bytesEncode | copyEncode | engChunk | engEmit | engDone => simp [Instr.hostIssuable] at hi

/-- A write of CMD always has a next state. -/
theorem issueCommand_next (w : CmdWord) (s : State) : ∃ t, issueCommand w s = .next t := by
  unfold issueCommand
  split
  next i hd => exact exec_host_next (decodeHost_hostIssuable hd) s
  next => exact ⟨_, rfl⟩

/-- An access always has a next state. -/
theorem runAccess_next (a : Access) (s : State) : ∃ t, runAccess a s = .next t := by
  unfold runAccess
  split
  next => exact ⟨_, rfl⟩
  next =>
    split
    next => exact ⟨_, rfl⟩
    next =>
      split
      next => exact issueCommand_next _ s
      next => exact ⟨_, rfl⟩
    next => exact ⟨_, rfl⟩

/-- Every enabled turn has a next state. -/
theorem runTurn_next {u : Turn} {s : State} (h : s.turnEnabled u = true) : ∃ t, runTurn u s = .next t := by
  by_cases hu : u = .host
  · subst hu
    obtain ⟨a, ha⟩ : ∃ a, s.currentAccess = some a :=
      ⟨_, List.getElem?_eq_getElem (State.hostPos_lt_of_hostEnabled h)⟩
    have hturn : runTurn .host s = runAccess a s := by simp only [runTurn, hostTurn, ha]
    rw [hturn]
    exact runAccess_next a s
  · exact runTurn_engine_next hu h

/-- A step has a next state, or no turn is enabled and the machine stops for the reason at hand. -/
theorem step_next_or_stop (s : State) :
    (∃ t, step s = .next t) ∨ (∀ u, s.turnEnabled u = false) ∧ step s = .fault s.stopReason := by
  cases hp : s.pickTurn with
  | none =>
    refine .inr ⟨fun u => Bool.eq_false_iff.mpr fun hu => ?_, by simp only [step, stepOnce, hp]⟩
    obtain ⟨p, hsome⟩ := exists_pickTurn hu
    simp [hp] at hsome
  | some p =>
    obtain ⟨u, s'⟩ := p
    obtain ⟨hen, hs'⟩ := pickTurn_cases hp
    have hdrawn : s.Drawn s' := by
      rcases hs' with rfl | rfl
      · exact .refl _
      · exact s.drawn_draw
    rw [← hdrawn.turnEnabled] at hen
    obtain ⟨t, ht⟩ := runTurn_next hen
    exact .inl ⟨t, (step_of_pickTurn hp).trans ht⟩

/-- While a transaction is in flight some turn is enabled (42_transmit_channel.md R105). -/
theorem State.Inv.not_transmitting {s : State} (hs : s.Inv) (h : ∀ u, s.turnEnabled u = false) :
    s.transmitting = false :=
  Bool.eq_false_iff.mpr fun ht => by
    obtain ⟨u, -, hu⟩ := exists_engine_enabled (hs.device (State.transmitting_iff.mp ht).1) ht
    simp [h u] at hu

/-- A host between the accesses of its program is neither in a command nor held. -/
theorem State.Inv.host_idle {s : State} (hs : s.Inv) (hi : s.currentCommand = none) :
    s.hostSub = .start ∧ s.hostHeld = false := by
  have hsub : s.hostSub = .start := by_contra fun hne => by
    obtain ⟨-, i, hcommand, -⟩ := hs.sub hne
    simp [hi] at hcommand
  refine ⟨hsub, Bool.eq_false_iff.mpr fun hh => ?_⟩
  obtain ⟨-, -, hw | ⟨-, w, hcommand⟩⟩ := hs.held hh
  · simp [hsub] at hw
  · simp [hi] at hcommand

/-- With no turn enabled and no FAULT bit the run has ended (70_reset_and_hazards.md R156). -/
theorem State.Inv.ended {s : State} (hs : s.Inv) (h : ∀ u, s.turnEnabled u = false) (hf : s.noFault = true) :
    s.ended = true := by
  have htrans := hs.not_transmitting h
  have hstop : s.hostStopped = false := by
    simp only [State.noFault, Bool.and_eq_true, Bool.not_eq_true'] at hf
    simp [State.hostStopped, hf]
  have hlift : s.hostHeld = true → s.holdLifts = true := fun hh => by
    obtain ⟨hl, -⟩ := hs.held hh
    have hc : s.dev.chState ≠ .transmitting := fun hc =>
      Bool.eq_false_iff.mp htrans (State.transmitting_iff.mpr ⟨hl, hc⟩)
    simp [State.holdLifts, hc]
  have hpos : s.hostPos = s.program.length := by
    refine hs.pos.eq_of_not_lt fun hlt => ?_
    have hhost : s.hostEnabled = true := by
      cases hh : s.hostHeld with
      | false => simp [State.hostEnabled, hlt, hstop, hh]
      | true => rw [State.hostEnabled_of_held hh hlt hstop, hlift hh]
    exact Bool.eq_false_iff.mp (h .host) hhost
  have hi : s.currentCommand = none := by simp [State.currentCommand, State.currentAccess, hpos]
  obtain ⟨hsub, hheld⟩ := hs.host_idle hi
  simp [State.ended, hpos, hsub, hheld, htrans, hf]

/-- Settles O19: an engine step in a transaction, and with no turn enabled the run has ended or a FAULT bit is set. -/
theorem noDeadlock : Obligations.NoDeadlock := by
  unfold Obligations.NoDeadlock
  intro s hs
  refine ⟨fun ht => ?_, fun hstep => ?_⟩
  · obtain ⟨u, hu, hen⟩ := exists_engine_enabled (hs.device (State.transmitting_iff.mp ht).1) ht
    cases u with
    | host => exact absurd rfl hu
    | engChunk => exact .inl hen
    | engEmit => exact .inr (.inl hen)
    | engDone => exact .inr (.inr hen)
  · obtain ⟨t, ht⟩ | ⟨hno, hstop⟩ := step_next_or_stop s
    · simp [ht] at hstep
    · rw [hstop, State.stopReason] at hstep
      cases hf : s.noFault with
      | true => simp [hs.ended hno hf] at hstep
      | false =>
        rw [hf] at hstep
        split at hstep <;> simp at hstep

end Sys2Proof.Machine
end

section
/-! SUPPORT. The channel commands of 42_transmit_channel.md (R95 to R101), and REFRESH, whose sub-steps are these
commands (43_strip_device.md R117, R121). -/

namespace Sys2Proof.Machine

/-! ## What a command writes after its driver draw (92 D19) -/

section
variable (s : State)

theorem State.setChState_driverFails (c : ChState) :
    s.driverFails.2.setChState c = { s.driverFails.2 with dev := { s.dev with chState := c } } := by
  rw [State.setChState, State.driverFails_dev]

theorem State.frameBoundary_driverFails (c : ChState) (e : WireEvent) :
    s.driverFails.2.frameBoundary c e =
      { s.driverFails.2 with
        dev := { s.dev with chState := c, encDone := false, memblk := [] }, wire := s.wire ++ [e] } := by
  rw [State.frameBoundary, State.driverFails_dev, State.driverFails_wire]

theorem State.startFrame_driverFails :
    s.driverFails.2.startFrame =
      { s.driverFails.2 with
        dev := { s.dev with chState := .transmitting, encDone := false, memblk := [] }
        wire := s.wire ++ [.frameStart] } := by
  rw [State.startFrame_eq, State.frameBoundary_driverFails]

end

/-! ## The channel commands (42_transmit_channel.md R97 to R101) -/

/-- Settles O37: the cases of ChEnable; the last commits after the driver draw. -/
theorem chEnableResult : Obligations.ChEnableResult := by
  unfold Obligations.ChEnableResult
  refine ⟨by decide, fun s => ?_⟩
  show finish (chEnable s) = _
  rcases chEnable_cases s with ⟨hl, e⟩ | ⟨hl, e⟩ | ⟨hl, hc, e⟩ | ⟨hl, hc | hc, e⟩ | ⟨hl, hc, hd, e⟩ |
    ⟨hl, hc, hd, e⟩ <;> rw [e]
  on_goal 7 => rw [State.setChState_driverFails]
  all_goals simp [State.raiseDangling, State.returnCode, *]

/-- Settles O42: the cases of ChDelete; the last commits after the driver draw. -/
theorem chDeleteResult : Obligations.ChDeleteResult := by
  unfold Obligations.ChDeleteResult
  refine ⟨by decide, fun s => ?_⟩
  show finish (chDelete s) = _
  rcases chDelete_cases s with ⟨hl, e⟩ | ⟨hl, e⟩ | ⟨hl, hc, e⟩ | ⟨hl, hc | hc, e⟩ | ⟨hl, hc, hd, e⟩ |
    ⟨hl, hc, hd, e⟩ <;> rw [e]
  on_goal 7 => rw [State.setChState_driverFails]
  all_goals simp [State.raiseDangling, State.returnCode, *]

/-- Settles O38: the cases of ChTransmit; the last begins a frame after the driver draw. -/
theorem chTransmitResult : Obligations.ChTransmitResult := by
  unfold Obligations.ChTransmitResult
  refine ⟨by decide, fun l s => ?_⟩
  show finish (chTransmit l s) = _
  rcases chTransmit_cases l s with ⟨hl, e⟩ | ⟨hl, e⟩ | ⟨hl, hw, e⟩ | ⟨hl, hw, hc, e⟩ | ⟨hl, hw, hc, e⟩ |
    ⟨hl, hw, hc, e⟩ | ⟨hl, hw, hc, hd, e⟩ | ⟨hl, hw, hc, hd, e⟩ <;> rw [e]
  on_goal 8 => rw [State.startFrame_driverFails]
  all_goals simp [State.raiseDangling, State.returnCode, *]

/-- Settles O41: the cases of ChDisable; the last two commit, without a transaction to abort and with one. -/
theorem chDisableResult : Obligations.ChDisableResult := by
  unfold Obligations.ChDisableResult
  refine ⟨by decide, fun s => ?_⟩
  show finish (chDisable s) = _
  rcases chDisable_cases s with ⟨hl, e⟩ | ⟨hl, e⟩ | ⟨hl, hc, e⟩ | ⟨hl, hc, e⟩ | ⟨hl, hc | hc, hd, e⟩ |
    ⟨hl, hc | hc, hd, e⟩ <;> rw [e]
  on_goal 7 => rw [State.abortFrame_of_idle (by simp [hc]), State.setChState_driverFails]
  on_goal 8 => rw [State.abortFrame_disabled (by simpa using hc), State.frameBoundary_driverFails]
  all_goals simp [State.raiseDangling, State.returnCode, *]

/-- A wait the host is at has its own timeout. -/
theorem State.heldTimeout_of_chWait {s : State} {w : Word} (h : s.currentCommand = some (.chWait w)) :
    s.heldTimeout = w := by
  obtain ⟨v, ha, hd⟩ := State.currentCommand_eq_some h
  simp only [State.heldTimeout, ha, hd]

/-- A host at a command has not come to its program's end. -/
theorem State.hostPos_lt_of_command {s : State} {i : Instr} (h : s.currentCommand = some i) :
    s.hostPos < s.program.length := by
  obtain ⟨w, ha, -⟩ := State.currentCommand_eq_some h
  exact (List.getElem?_eq_some_iff.mp ha).1

/-- Settles O39: the cases of ChWait, for a host that is not held and for one that is. -/
theorem chWaitResult : Obligations.ChWaitResult := by
  unfold Obligations.ChWaitResult
  refine ⟨by decide, fun w s hh => ?_, fun w s hh hc => ?_, fun w s hh hc hw => ?_, fun w s hh hi hs => ?_⟩
  · show finish (chWait w s) = _
    rcases chWait_cases w s hh with ⟨hl, e⟩ | ⟨hl, e⟩ | ⟨hl, hc, e⟩ | ⟨hl, hc | hc, e⟩ | ⟨hl, hc, hw, e⟩ |
      ⟨hl, hc, hw, e⟩ <;> rw [e]
    all_goals simp [State.raiseDangling, State.returnCode, State.setHeld, *]
  · have e : chWait w s = .done .ok (s.setHeld false) := by simpa [hc] using chWait_held_cases w s hh
    show finish (chWait w s) = _
    rw [e]
    rfl
  · have hfinite : w ≠ infiniteTimeout := hw
    have e : chWait w s = .done .timeout (s.setHeld false) := by simpa [hc, hfinite] using chWait_held_cases w s hh
    show finish (chWait w s) = _
    rw [e]
    rfl
  · rw [State.hostEnabled_of_held hh (State.hostPos_lt_of_command hi) hs, State.holdLifts,
      State.heldTimeout_of_chWait hi, Bool.or_eq_true, bne_iff_ne, bne_iff_ne]
    rfl

/-! ## The sub-steps of REFRESH (43_strip_device.md R117, R121) -/

section
variable {s : State}

/-- Sub-step E is ChEnable, also of a REFRESH that begins. -/
theorem exec_refresh_enable (hs : s.hostSub = .start ∨ s.hostSub = .enable) :
    exec .refresh s = continueTo .transmit (chEnable s) := by
  show refreshStep s = _
  rcases hs with hs | hs <;> rw [refreshStep, hs]

/-- Sub-step T is ChTransmit. -/
theorem exec_refresh_transmit (hs : s.hostSub = .transmit) : exec .refresh s = continueTo .wait (chTransmit 0#8 s) := by
  show refreshStep s = _
  rw [refreshStep, hs]

/-- Sub-step W is an infinite ChWait. -/
theorem exec_refresh_wait (hs : s.hostSub = .wait) :
    exec .refresh s = continueTo .disable (chWait infiniteTimeout s) := by
  show refreshStep s = _
  rw [refreshStep, hs]

/-- Sub-step D is ChDisable, which ends the command. -/
theorem exec_refresh_disable (hs : s.hostSub = .disable) : exec .refresh s = finish (chDisable s) := by
  show refreshStep s = _
  rw [refreshStep, hs]

/-- A driver failure ends REFRESH at each sub-step that draws: E on a DISABLED channel, T and D on an ENABLED one. -/
theorem exec_refresh_driver_fails (hl : s.devState = .live) (hd : s.driverFails.1 = true)
    (h : (s.hostSub = .start ∨ s.hostSub = .enable) ∧ s.dev.chState = .disabled ∨
      (s.hostSub = .transmit ∨ s.hostSub = .disable) ∧ s.dev.chState = .enabled) :
    exec .refresh s = .next (s.driverFails.2.returnCode .deviceError) := by
  rcases h with ⟨hs, hc⟩ | ⟨hs | hs, hc⟩
  · have e : chEnable s = .done .deviceError s.driverFails.2 := by simpa [hl, hc, hd] using chEnable_cases s
    rw [exec_refresh_enable hs, e, continueTo_error _ .deviceError _ nofun]
  · have e : chTransmit 0#8 s = .done .deviceError s.driverFails.2 := by
      simpa [hl, hc, hd] using chTransmit_cases 0#8 s
    rw [exec_refresh_transmit hs, e, continueTo_error _ .deviceError _ nofun]
  · have e : chDisable s = .done .deviceError s.driverFails.2 := by simpa [hl, hc, hd] using chDisable_cases s
    rw [exec_refresh_disable hs, e, finish_done]

end

/-- Settles O57: sub-step W, the sub-steps E, T and D that succeed, and the ways to fail. -/
theorem refreshStepResults : Obligations.RefreshStepResults := by
  unfold Obligations.RefreshStepResults
  intro s
  refine ⟨fun hl => ⟨fun hs hh hc => ?_, fun hs hc => ?_⟩,
    fun hl hd => ⟨fun hs hc => ?_, fun hs hc => ?_, fun hs hc => ?_⟩, fun hs hl => ?_, fun hs hl => ?_,
    fun hs hl hc => ?_, fun hs hl hc => ?_, fun hl hd h => ?_⟩
  · rw [exec_refresh_wait hs, chWait_of_transmitting (by decide) hl hc hh]
    rfl
  · rw [exec_refresh_wait hs, chWait_of_enabled _ hl hc]
    rfl
  · have e : chEnable s = .done .ok (s.driverFails.2.setChState .enabled) := by
      simpa [hl, hc, hd] using chEnable_cases s
    rw [exec_refresh_enable hs, e, State.setChState_driverFails]
    rfl
  · have e : chTransmit 0#8 s = .done .ok s.driverFails.2.startFrame := by
      simpa [hl, hc, hd] using chTransmit_cases 0#8 s
    rw [exec_refresh_transmit hs, e, State.startFrame_driverFails]
    rfl
  · have e : chDisable s = .done .ok (s.driverFails.2.abortFrame.setChState .disabled) := by
      simpa [hl, hc, hd] using chDisable_cases s
    rw [exec_refresh_disable hs, e, State.abortFrame_of_idle (by simp [hc]), State.setChState_driverFails, finish_done,
      State.returnCode, State.driverFails_hostPos]
  · have e : chEnable s = .done .invalidArgument s := by simpa [hl] using chEnable_cases s
    rw [exec_refresh_enable (.inl hs), e, continueTo_error _ .invalidArgument _ nofun, State.returnCode, ← hs]
  · have e : chEnable s = .dangling s := by simpa [hl] using chEnable_cases s
    rw [exec_refresh_enable (.inl hs), e]
    rfl
  · have e : chEnable s = .done .deviceError s := by
      rcases hc with hc | hc <;> simpa [hl, hc] using chEnable_cases s
    rw [exec_refresh_enable hs, e]
    rfl
  · have e : chEnable s = .dangling s := by simpa [hl, hc] using chEnable_cases s
    rw [exec_refresh_enable hs, e]
    rfl
  · rw [exec_refresh_driver_fails hl hd h, State.returnCode, State.driverFails_hostPos]

end Sys2Proof.Machine
end

section
/-! SUPPORT. The strip-device commands that write the pixel buffer, in their first step (43_strip_device.md R115, R116,
R118 to R120), and DESTROY (R122). -/

namespace Sys2Proof.Machine

/-! ## The bytes a write leaves (20_memory.md R52, R59) -/

/-- A write to the pixel buffer in terms of the elements it touches. -/
theorem State.noteRace_writePixels (s : State) (a : Nat) (vs : List Byte) :
    s.noteRace.writePixels a vs =
      { s with
        mem := Memory.writeBytes s.mem a vs
        faultRace := s.faultRace || decide (s.dev.chState = .transmitting) } := rfl

theorem Memory.read_writeBytes_of_getElem? (m : Memory) (a : Nat) {vs : List Byte} {i : Nat} {v : Byte}
    (h : vs[i]? = some v) : Memory.read (Memory.writeBytes m a vs) (a + i) = v := by
  obtain ⟨hi, hv⟩ := List.getElem?_eq_some_iff.mp h
  rw [Memory.read_writeBytes_inside m a vs i hi, hv]

/-- Pixel `k` of a fill holds the bytes of one pixel. -/
theorem fillBytes_getElem? (r g b : Byte) {n k j : Nat} (hk : k < n) (hj : j < 3) :
    (fillBytes n r g b)[3 * k + j]? = (pixelBytes r g b)[j]? := by
  induction n generalizing k with
  | zero => omega
  | succ n ih =>
    rw [fillBytes]
    cases k with
    | zero =>
      rw [Nat.mul_zero, Nat.zero_add]
      exact List.getElem?_append_left hj
    | succ k =>
      have hle : (pixelBytes r g b).length ≤ 3 * (k + 1) + j := by simp only [pixelBytes, List.length]; omega
      have hidx : 3 * (k + 1) + j - (pixelBytes r g b).length = 3 * k + j := by
        simp only [pixelBytes, List.length]
        omega
      rw [List.getElem?_append_right hle, hidx, ih (by omega)]

/-- What each byte of a filled strip reads. -/
theorem Memory.read_fillBytes (m : Memory) (r g b : Byte) {n k j : Nat} {v : Byte} (hk : k < n)
    (hv : (pixelBytes r g b)[j]? = some v) : Memory.read (Memory.writeBytes m 0 (fillBytes n r g b)) (3 * k + j) = v := by
  have hj : j < 3 := (List.getElem?_eq_some_iff.mp hv).1
  rw [← Nat.zero_add (3 * k + j)]
  exact Memory.read_writeBytes_of_getElem? m 0 ((fillBytes_getElem? r g b hk hj).trans hv)

/-! ## SET_PIXEL (43_strip_device.md R115) -/

/-- Settles O53: the checks, then three bytes written from 3i on. -/
theorem setPixelResult : Obligations.SetPixelResult := by
  unfold Obligations.SetPixelResult
  refine ⟨by decide, fun i r g b s => ⟨fun hl => ?_, fun hl => ?_, fun hl hi => ?_, fun hl hi => ?_⟩⟩ <;>
    simp only [exec, execSetPixel]
  · rw [withDevice_none _ hl]
    rfl
  · rw [withDevice_destroyed _ hl]
    rfl
  · rw [withDevice_live _ hl, if_neg (by rw [BitVec.lt_def]; omega)]
    rfl
  · rw [withDevice_live _ hl, if_pos (BitVec.lt_def.mpr hi), State.noteRace_writePixels]
    have written {j : Nat} {v : Byte} (h : (pixelBytes r g b)[j]? = some v) :=
      Memory.read_writeBytes_of_getElem? s.mem (3 * i.toNat) h
    exact ⟨_, rfl, written (j := 0) rfl, written (j := 1) rfl, written (j := 2) rfl,
      fun a ha => Memory.read_writeBytes_outside _ _ _ ha⟩

/-! ## The first step of a painting command (43_strip_device.md R116, R118 to R120) -/

section
variable {s : State} (hs : s.hostSub = .start)
include hs

theorem State.returnCode_of_start (c : ResultCode) :
    s.returnCode c = { s with result := c, hostPos := s.hostPos + 1 } := by
  rw [State.returnCode, ← hs]

theorem paintThenRefresh_of_start (p : CmdResult) : paintThenRefresh p s = continueTo .enable p := by
  rw [paintThenRefresh, hs]

theorem paintThenRefresh_of_none (hl : s.devState = .none) (k : CmdResult) :
    paintThenRefresh (withDevice s k) s = .next { s with result := .invalidArgument, hostPos := s.hostPos + 1 } := by
  rw [paintThenRefresh_of_start hs, withDevice_none _ hl, continueTo_error _ .invalidArgument _ nofun,
    State.returnCode_of_start hs]

theorem paintThenRefresh_of_destroyed (hl : s.devState = .destroyed) (k : CmdResult) :
    paintThenRefresh (withDevice s k) s = .next { s with faultDangling := true } := by
  rw [paintThenRefresh_of_start hs, withDevice_destroyed _ hl]
  rfl

/-- The painting sub-step writes the buffer from its first byte on and goes on to sub-step E. -/
theorem paintThenRefresh_of_live (hl : s.devState = .live) (vs : List Byte) :
    paintThenRefresh (withDevice s (.done .ok (s.noteRace.writePixels 0 vs))) s =
      .next { s with
        mem := Memory.writeBytes s.mem 0 vs
        faultRace := s.faultRace || decide (s.dev.chState = .transmitting), hostSub := .enable } := by
  rw [paintThenRefresh_of_start hs, withDevice_live _ hl, State.noteRace_writePixels]
  rfl

end

/-- Settles O54: the fill of the whole strip, then sub-step E. -/
theorem setAllPixelsResult : Obligations.SetAllPixelsResult := by
  unfold Obligations.SetAllPixelsResult
  refine fun r g b s => ⟨exec_of_started rfl, fun hs hl => paintThenRefresh_of_none hs hl _,
    fun hs hl => paintThenRefresh_of_destroyed hs hl _,
    fun hs hl => ⟨_, paintThenRefresh_of_live hs hl _, fun k hk => ?_, fun a ha => ?_⟩⟩
  · have painted {j : Nat} {v : Byte} (h : (pixelBytes r g b)[j]? = some v) := Memory.read_fillBytes s.mem r g b hk h
    exact ⟨painted (j := 0) rfl, painted (j := 1) rfl, painted (j := 2) rfl⟩
  · exact Memory.read_writeBytes_outside _ _ _ (.inr (by simpa using ha))

/-- Settles O56: the zeroing of the whole buffer, then sub-step E. -/
theorem clearResult : Obligations.ClearResult := by
  unfold Obligations.ClearResult
  refine fun s => ⟨exec_of_started rfl, fun hs hl => paintThenRefresh_of_none hs hl _,
    fun hs hl => paintThenRefresh_of_destroyed hs hl _,
    fun hs hl => ⟨_, paintThenRefresh_of_live hs hl _, fun j hj => ?_, fun a ha => ?_⟩⟩
  · rw [← Nat.zero_add j]
    exact Memory.read_writeBytes_of_getElem? _ _ (List.getElem?_replicate_of_lt hj)
  · exact Memory.read_writeBytes_outside _ _ _ (.inr (by simpa [Device.bufferLen] using ha))

/-! ## SET_COLOUR (43_strip_device.md R112, R119) -/

theorem palette_eq_none_iff {c : Byte} : palette c = none ↔ 6 ≤ c.toNat := by
  unfold palette
  split <;> grind

/-- A colour of the palette is SET_ALL_PIXELS of its entry, at every sub-step. -/
theorem exec_setColour_of_palette {c r g b : Byte} (hp : palette c = some (r, g, b)) (s : State) :
    exec (.setColour c) s = exec (.setAllPixels r g b) s := by
  simp only [exec, execSetColour, paintColour, hp, execSetAllPixels]

/-- Settles O55: the checks and the palette's end; a colour of the palette paints as SET_ALL_PIXELS does. -/
theorem setColourResult : Obligations.SetColourResult := by
  unfold Obligations.SetColourResult
  refine fun c s => ⟨exec_of_started rfl, fun hs hl => paintThenRefresh_of_none hs hl _,
    fun hs hl => paintThenRefresh_of_destroyed hs hl _, fun hs hl hc => ?_, fun hs hl hc => ?_⟩
  · have e : paintColour c s = .done .invalidArgument s := by
      simpa [hl, palette_eq_none_iff.mpr hc] using paintColour_cases c s
    show paintThenRefresh (paintColour c s) s = _
    rw [paintThenRefresh_of_start hs, e, continueTo_error _ .invalidArgument _ nofun, State.returnCode_of_start hs]
  · obtain ⟨⟨r, g, b⟩, hp⟩ := Option.ne_none_iff_exists'.mp (mt palette_eq_none_iff.mp (by omega : ¬ 6 ≤ c.toNat))
    rw [exec_setColour_of_palette hp]
    obtain ⟨m, hexec, hread, hbeyond⟩ := (setAllPixelsResult r g b s).2.2.2 hs hl
    refine ⟨m, hexec, fun k hk => ?_, hbeyond⟩
    obtain ⟨hg, hr, hb⟩ := hread k hk
    rw [hg, hr, hb]
    unfold palette at hp
    interval_cases c.toNat <;> cases hp <;> rfl

/-! ## DESTROY (43_strip_device.md R122) -/

/-- The release of a device as one update. -/
theorem State.releaseDevice_eq (s : State) :
    s.releaseDevice =
      { s with
        devState := .destroyed, dev := Device.absent, mem := [], pinMarks := s.pinMarks ++ [⟨s.wire.length, none⟩] } :=
  rfl

theorem State.releaseDevice_driverFails (s : State) :
    s.driverFails.2.releaseDevice =
      { s.driverFails.2 with
        devState := .destroyed, dev := Device.absent, mem := [], pinMarks := s.pinMarks ++ [⟨s.wire.length, none⟩] } := by
  simp only [State.releaseDevice_eq, State.driverFails_pinMarks, State.driverFails_wire]

/-- Settles O60: the cases of DEV_STATE and CH_STATE; a DISABLED channel takes the driver draw first. -/
theorem destroyResult : Obligations.DestroyResult := by
  unfold Obligations.DestroyResult
  refine ⟨by decide, fun s => ?_⟩
  simp only [exec, execDestroy]
  cases hl : s.devState with
  | none =>
    rw [withDevice_none _ hl]
    simp [State.returnCode, hl]
  | destroyed =>
    rw [withDevice_destroyed _ hl]
    simp [State.raiseDangling, hl]
  | live =>
    rw [withDevice_live _ hl]
    cases hc : s.dev.chState with
    | enabled | transmitting => simp [State.returnCode, hl]
    | deleted => rfl
    | disabled =>
      rcases withDriver_cases s fun t => .done .ok t.releaseDevice with ⟨hd, e⟩ | ⟨hd, e⟩
      · simp [e, hd, State.returnCode]
      · simp [e, hd, State.returnCode, State.releaseDevice_driverFails]

end Sys2Proof.Machine
end

section
/-! SUPPORT. Every run stops (60_exceptions.md R130): the host's turns bring it on in its program, and between two of
them the engine's turns use up the transaction in flight. -/

namespace Sys2Proof.Machine

/-! ## How far the host has come (10_state.md R18, R31) -/

/-- The sub-steps of a command in their order. -/
def HostSub.rank : HostSub → Nat
  | .start => 0
  | .enable => 1
  | .transmit => 2
  | .wait => 3
  | .disable => 4

theorem HostSub.rank_le (n : HostSub) : n.rank ≤ 4 := by cases n <;> decide

/-- How far the host has come in its access: a wait that holds comes after one that has not begun. -/
def State.subProgress (s : State) : Nat := 2 * s.hostSub.rank + s.hostHeld.toNat

theorem State.subProgress_lt (s : State) : s.subProgress < 10 := by
  have hrank := s.hostSub.rank_le
  have hheld := s.hostHeld.toNat_le
  unfold State.subProgress
  omega

/-- What the host's turn does for the end of the run: the host stops, finishes its access, or comes on in it. -/
def HostAdvances (s t : State) : Prop :=
  t.hostStopped = true ∨ t.hostPos = s.hostPos + 1 ∨ t.hostPos = s.hostPos ∧ s.subProgress < t.subProgress

/-- A host that has stopped takes no turn. -/
theorem State.hostStopped_of_hostEnabled {s : State} (h : s.hostEnabled = true) : s.hostStopped = false := by
  simp only [State.hostEnabled, Bool.and_eq_true, Bool.not_eq_true'] at h
  exact h.1.2

/-- A host that has stopped for DANGLING. -/
theorem State.hostStopped_raiseDangling (s : State) : s.raiseDangling.hostStopped = true := rfl

/-- A host that has stopped for a refusal. -/
theorem State.hostStopped_refuse (s : State) : s.refuse.hostStopped = true := Bool.or_true _

/-- A command brings on a host that is not held. -/
theorem HostStep.advances {i : Instr} {s t : State} (h : HostStep i s t) (hh : s.hostHeld = false) :
    HostAdvances s t := by
  cases h with
  | dangling => exact .inl s.hostStopped_raiseDangling
  | refuse => exact .inl s.hostStopped_refuse
  | stay hheld | lift _ hheld => simp [hh] at hheld
  | hold => exact .inr (.inr ⟨rfl, by simp [State.subProgress, hh]⟩)
  | paint _ _ hs => exact .inr (.inr ⟨rfl, by simp [State.subProgress, HostSub.rank, hh, hs]⟩)
  | subEnable _ hs =>
    exact .inr (.inr ⟨by simp, by rcases hs with hs | hs <;> simp [State.subProgress, HostSub.rank, hh, hs]⟩)
  | subTransmit _ hs | subWait _ hs =>
    exact .inr (.inr ⟨by simp, by simp [State.subProgress, HostSub.rank, hh, hs]⟩)
  | _ => exact .inr (.inl (by simp))

/-- A multi-step command waits without a timeout (43_strip_device.md R117). -/
theorem State.heldTimeout_of_multiStep {s : State} {i : Instr} (hi : s.currentCommand = some i)
    (hm : multiStep i = true) : s.heldTimeout = infiniteTimeout := by
  obtain ⟨w, ha, hd⟩ := State.currentCommand_eq_some hi
  simp only [State.heldTimeout, ha, hd]
  cases i with
  | chWait => simp [multiStep] at hm
  | _ => rfl

/-- The turn of a held host is WAKE or EXPIRE: it ends sub-step W, or the CH_WAIT (42_transmit_channel.md R99). -/
theorem held_advances {i : Instr} {s t : State} (h : exec i s = .next t) (hs : s.Inv) (hh : s.hostHeld = true)
    (hi : s.currentCommand = some i) (hlift : s.holdLifts = true) : HostAdvances s t := by
  obtain ⟨-, -, hw | ⟨-, w, hw⟩⟩ := hs.held hh
  · obtain ⟨-, j, hj, hm⟩ := hs.sub (by simp [hw])
    obtain rfl := Option.some.inj (hi.symm.trans hj)
    have hc := (State.holdLifts_infinite_iff (State.heldTimeout_of_multiStep hi hm)).mp hlift
    have e : chWait infiniteTimeout s = .done .ok (s.setHeld false) := by
      simpa [hc] using chWait_held_cases infiniteTimeout s hh
    rw [exec_of_started hm (by simp [hw]), refreshStep, hw] at h
    dsimp only at h
    rw [e] at h
    cases h
    exact .inr (.inr ⟨rfl, by simp [State.subProgress, HostSub.rank, hh, hw]⟩)
  · obtain rfl := Option.some.inj (hi.symm.trans hw)
    change finish (chWait w s) = .next t at h
    rcases chWait_held_cases w s hh with ⟨-, e⟩ | ⟨-, -, e⟩ | ⟨hc, hinf, -⟩
    · rw [e] at h
      cases h
      exact .inr (.inl rfl)
    · rw [e] at h
      cases h
      exact .inr (.inl rfl)
    · simp [State.holdLifts, State.heldTimeout_of_chWait hi, hc, hinf] at hlift

/-- An access or an illegal word stops the host or finishes, and a command brings on a host that is not held. -/
theorem AccessStep.advances {s t : State} (h : AccessStep s t) (hh : s.hostHeld = false) : HostAdvances s t := by
  cases h with
  | refuse => exact .inl s.hostStopped_refuse
  | read v => exact .inr (.inl rfl)
  | readDangling => exact .inl (s.logRead 0#32).hostStopped_raiseDangling
  | writeCfg | illegal => exact .inr (.inl rfl)
  | command w i _ _ hs => exact hs.advances hh

/-- Every turn the host takes brings it on. -/
theorem hostTurn_advances {s t : State} (h : hostTurn s = .next t) (hs : s.Inv) (he : s.hostEnabled = true) :
    HostAdvances s t := by
  cases hh : s.hostHeld with
  | false => exact (hostTurn_cases h).advances hh
  | true =>
    obtain ⟨i, hi⟩ : ∃ i, s.currentCommand = some i :=
      Option.ne_none_iff_exists'.mp fun hnone => by simpa [hh] using (hs.host_idle hnone).2
    obtain ⟨w, ha, hd⟩ := State.currentCommand_eq_some hi
    rw [hostTurn_of_command ha hd] at h
    rw [State.hostEnabled_of_held hh (State.hostPos_lt_of_command hi) (State.hostStopped_of_hostEnabled he)] at he
    exact held_advances h hs hh hi he

/-! ## The work left (60_exceptions.md R130) -/

/-- A bound on the turns the host has still to take: at most ten for an access. -/
def State.hostWork (s : State) : Nat :=
  if s.hostStopped then 0 else 10 * (s.program.length - s.hostPos) - s.subProgress

/-- A bound on the turns the engine has still to take if the host takes none: its work, then ENG_DONE. -/
def State.engineLeft (s : State) : Nat := if s.transmitting then s.engineWork + 1 else 0

/-- The work left in a run. The host's counts first, since a host turn may begin a transaction. -/
def State.workLeft (s : State) : Nat ×ₗ Nat := toLex (s.hostWork, s.engineLeft)

theorem State.Drawn.workLeft {s u : State} (h : s.Drawn u) : u.workLeft = s.workLeft := by
  obtain ⟨i, d, rfl⟩ := h
  rfl

/-- A host that takes a turn and comes on has less work left. -/
theorem HostAdvances.hostWork_lt {s t : State} (h : HostAdvances s t) (hp : t.program = s.program)
    (he : s.hostEnabled = true) : t.hostWork < s.hostWork := by
  have hpos := State.hostPos_lt_of_hostEnabled he
  have hs := s.subProgress_lt
  rw [State.hostWork, State.hostWork, State.hostStopped_of_hostEnabled he, if_neg Bool.false_ne_true, hp]
  split
  · omega
  next hrun =>
    rcases h with hstop | hnext | ⟨hsame, hlt⟩
    · exact absurd hstop hrun
    · omega
    · omega

/-- An engine step leaves the host's work as it is. -/
theorem EngineStep.hostWork {s t : State} (h : EngineStep s t) : t.hostWork = s.hostWork := by
  obtain ⟨d, es, i, n, rfl⟩ := h.frame
  rfl

/-- An engine step brings the transaction in flight on, or ends it. -/
theorem EngineStep.engineLeft_lt {s t : State} (h : EngineStep s t) (hs : s.dev.Inv) :
    t.engineLeft < s.engineLeft := by
  rw [State.engineLeft, State.engineLeft, if_pos h.transmitting]
  rcases h.transaction hs with ⟨ht, -, hlt⟩ | ⟨rfl, -, -⟩
  · rw [if_pos ht]
    omega
  · rw [State.transmitting_eq_false (.inr (by simp)), if_neg Bool.false_ne_true]
    omega

/-- Every step of the machine leaves less work. -/
theorem step_workLeft_lt {s t : State} (hs : s.Inv) (h : step s = .next t) : t.workLeft < s.workLeft := by
  obtain ⟨u, hu, hturn⟩ := step_turn h
  rw [← hu.workLeft, State.workLeft, State.workLeft, Prod.Lex.toLex_lt_toLex]
  have hinv := hu.inv hs
  rcases hturn with ⟨hen, hr⟩ | he
  · rw [← show u.hostEnabled = s.hostEnabled from hu.turnEnabled .host] at hen
    exact .inl ((hostTurn_advances hr hinv hen).hostWork_lt (hostTurn_cases hr).adds.program hen)
  · obtain ⟨hlive, -⟩ := State.transmitting_iff.mp he.transmitting
    exact .inr ⟨he.hostWork, he.engineLeft_lt (hinv.device hlive)⟩

/-- Settles O20, by induction on the work left, which every step lessens. -/
theorem everyRunStops : Obligations.EveryRunStops := by
  unfold Obligations.EveryRunStops
  intro s hs
  induction hw : s.workLeft using WellFoundedLT.induction generalizing s with
  | _ w ih =>
    subst hw
    rcases step_next_or_stop s with ⟨t, ht⟩ | ⟨-, hstop⟩
    · obtain ⟨n, hn⟩ := ih _ (step_workLeft_lt hs ht) t (stepKeepsInvariant s t hs ht) rfl
      exact ⟨n + 1, fun v => by rw [run_succ Sys2Proof.core ht]; exact hn v⟩
    · refine ⟨1, fun v hv => ?_⟩
      have hfault : Sys2Proof.core.step s = .fault s.stopReason := hstop
      simp [Host.Core.run, hfault] at hv

end Sys2Proof.Machine
end

section
/-! SUPPORT. The table of result codes (60_exceptions.md R124) and the states that raise DANGLING (R127), both read off
one statement per operation. -/

namespace Sys2Proof.Machine

/-! ## What a command answers (60_exceptions.md R124, R126, R127) -/

/-- An operation begun in `s` ends in one of the codes `cs` and raises DANGLING exactly if `P`; it leaves HOST_POS and
DANGLING for its end to write. -/
def CmdResult.Follows (s : State) (cs : List ResultCode) (P : Prop) : CmdResult → Prop
  | .done c t => ¬ P ∧ c ∈ cs ∧ t.hostPos = s.hostPos ∧ t.faultDangling = s.faultDangling
  | .dangling t => P ∧ t.hostPos = s.hostPos
  | .hold t => ¬ P ∧ t.hostPos = s.hostPos ∧ t.faultDangling = s.faultDangling

/-- A step from `s` has a next state, with a code of `cs` if a command finishes in it, and with DANGLING raised exactly
if `P`. -/
def Obeys (s : State) (cs : List ResultCode) (P : Prop) (o : Host.Outcome State Fault Refusal) : Prop :=
  ∃ t, o = .next t ∧ (t.hostPos = s.hostPos + 1 → t.result ∈ cs) ∧
    (t.faultDangling = true ↔ P ∨ s.faultDangling = true)

/-- The device or its channel is gone: DANGLING for the commands that need both (60_exceptions.md R127). -/
abbrev channelGone (s : State) : Prop := s.devState = .destroyed ∨ s.devState = .live ∧ s.dev.chState = .deleted

section
variable {s : State} {cs : List ResultCode} {P Q : Prop}

theorem Obeys.congr {o : Host.Outcome State Fault Refusal} (h : Obeys s cs P o) (hpq : P ↔ Q) : Obeys s cs Q o := by
  rwa [← propext hpq]

/-- A step that ends the command in a code of the list. -/
theorem Obeys.returnCode {t : State} {c : ResultCode} (hc : c ∈ cs) (hp : ¬ P)
    (hd : t.faultDangling = s.faultDangling) : Obeys s cs P (.next (t.returnCode c)) :=
  ⟨_, rfl, fun _ => hc, by simp [hp, hd]⟩

/-- A step that leaves the host at its command. -/
theorem Obeys.stay {t : State} (hn : t.hostPos = s.hostPos) (hd : t.faultDangling = true ↔ P ∨ s.faultDangling = true) :
    Obeys s cs P (.next t) :=
  ⟨t, rfl, fun h => by omega, hd⟩

theorem CmdResult.Follows.finish {r : CmdResult} (h : r.Follows s cs P) : Obeys s cs P (finish r) := by
  cases r with
  | done c t =>
    obtain ⟨hp, hc, -, hd⟩ := h
    exact .returnCode hc hp hd
  | dangling t =>
    obtain ⟨hp, hn⟩ := h
    exact .stay hn (by simp [hp])
  | hold t =>
    obtain ⟨hp, hn, hd⟩ := h
    exact .stay hn (by simp [hp, hd])

theorem CmdResult.Follows.continueTo {r : CmdResult} (h : r.Follows s cs P) (n : HostSub) :
    Obeys s cs P (continueTo n r) := by
  cases r with
  | done c t =>
    obtain ⟨hp, hc, hn, hd⟩ := h
    by_cases hok : c = .ok
    · subst hok
      exact .stay hn (by simp [hp, hd])
    · rw [continueTo_error n c t hok]
      exact .returnCode hc hp hd
  | dangling t =>
    obtain ⟨hp, hn⟩ := h
    exact .stay hn (by simp [hp])
  | hold t =>
    obtain ⟨hp, hn, hd⟩ := h
    exact .stay hn (by simp [hp, hd])

/-! ## The channel operations (42_transmit_channel.md R97 to R101) -/

theorem chEnable_follows (s : State) :
    (chEnable s).Follows s [.ok, .invalidArgument, .deviceError] (channelGone s) := by
  rcases chEnable_cases s with ⟨hl, e⟩ | ⟨hl, e⟩ | ⟨hl, hc, e⟩ | ⟨hl, hc | hc, e⟩ | ⟨hl, hc, -, e⟩ | ⟨hl, hc, -, e⟩ <;>
    rw [e] <;> simp [CmdResult.Follows, channelGone, *]

theorem chDisable_follows (s : State) :
    (chDisable s).Follows s [.ok, .invalidArgument, .deviceError] (channelGone s) := by
  rcases chDisable_cases s with ⟨hl, e⟩ | ⟨hl, e⟩ | ⟨hl, hc, e⟩ | ⟨hl, hc, e⟩ | ⟨hl, hc | hc, -, e⟩ |
    ⟨hl, hc | hc, -, e⟩ <;> rw [e] <;> simp [CmdResult.Follows, channelGone, *]

theorem chDelete_follows (s : State) :
    (chDelete s).Follows s [.ok, .invalidArgument, .deviceError] (channelGone s) := by
  rcases chDelete_cases s with ⟨hl, e⟩ | ⟨hl, e⟩ | ⟨hl, hc, e⟩ | ⟨hl, hc | hc, e⟩ | ⟨hl, hc, -, e⟩ | ⟨hl, hc, -, e⟩ <;>
    rw [e] <;> simp [CmdResult.Follows, channelGone, *]

/-- HARDWARE_BUSY comes from a transaction in flight only. -/
theorem chTransmit_follows (l : Byte) (hcs : [.ok, .invalidArgument, .deviceError] ⊆ cs)
    (hbusy : s.dev.chState = .transmitting → .hardwareBusy ∈ cs) :
    (chTransmit l s).Follows s cs
      (s.devState = .destroyed ∨ s.devState = .live ∧ l = 0#8 ∧ s.dev.chState = .deleted) := by
  simp only [List.cons_subset, List.nil_subset, and_true] at hcs
  obtain ⟨hok, harg, hdev⟩ := hcs
  rcases chTransmit_cases l s with ⟨hl, e⟩ | ⟨hl, e⟩ | ⟨hl, h0, e⟩ | ⟨hl, h0, hc, e⟩ | ⟨hl, h0, hc, e⟩ |
    ⟨hl, h0, hc, e⟩ | ⟨hl, h0, hc, -, e⟩ | ⟨hl, h0, hc, -, e⟩ <;> rw [e] <;> simp [CmdResult.Follows, *]

/-- TIMEOUT comes from a finite timeout only; a host that is held waits on a channel that exists. -/
theorem chWait_follows (w : Word) (hcs : [.ok, .invalidArgument] ⊆ cs) (htime : w ≠ infiniteTimeout → .timeout ∈ cs)
    (hheld : s.hostHeld = true → ¬ channelGone s) : (chWait w s).Follows s cs (channelGone s) := by
  simp only [List.cons_subset, List.nil_subset, and_true] at hcs
  obtain ⟨hok, harg⟩ := hcs
  cases hh : s.hostHeld with
  | false =>
    have hzero : w = 0#32 → .timeout ∈ cs := fun h0 => htime (by rw [h0]; decide)
    rcases chWait_cases w s hh with ⟨hl, e⟩ | ⟨hl, e⟩ | ⟨hl, hc, e⟩ | ⟨hl, hc | hc, e⟩ | ⟨hl, hc, h0, e⟩ |
      ⟨hl, hc, -, e⟩ <;> rw [e] <;> simp [CmdResult.Follows, channelGone, *]
  | true =>
    have hgone := hheld hh
    rcases chWait_held_cases w s hh with ⟨-, e⟩ | ⟨-, hw, e⟩ | ⟨-, -, e⟩ <;> rw [e]
    · exact ⟨hgone, hok, rfl, rfl⟩
    · exact ⟨hgone, htime hw, rfl, rfl⟩
    · exact ⟨hgone, rfl, rfl⟩

/-! ## The multi-step commands (43_strip_device.md R117 to R121) -/

/-- The sub-steps after E find a channel that is not DELETED. -/
theorem subReady_not_deleted {n : HostSub} {c : ChState} (h : subReady n c) (hn : n ≠ .start) (he : n ≠ .enable) :
    c ≠ .deleted := by
  rintro rfl
  cases n with
  | start => exact hn rfl
  | enable => exact he rfl
  | transmit | disable => cases h
  | wait => simp [subReady] at h

/-- REFRESH at every sub-step: no HARDWARE_BUSY, since sub-step T finds the channel ENABLED, and no TIMEOUT, since
sub-step W waits without one. -/
theorem refreshStep_obeys (hready : subReady s.hostSub s.dev.chState) (hheld : s.hostHeld = true → ¬ channelGone s) :
    Obeys s [.ok, .invalidArgument, .deviceError] (channelGone s) (refreshStep s) := by
  unfold refreshStep
  cases hs : s.hostSub with
  | start | enable => exact (chEnable_follows s).continueTo _
  | transmit =>
    rw [hs] at hready
    have hc : s.dev.chState = .enabled := hready
    exact ((chTransmit_follows 0#8 (List.Subset.refl _) (by simp [hc])).continueTo _).congr (by simp)
  | wait => exact (chWait_follows _ (by simp) (absurd rfl) hheld).continueTo _
  | disable => exact (chDisable_follows s).finish

theorem paintThenRefresh_of_started (p : CmdResult) (hs : s.hostSub ≠ .start) :
    paintThenRefresh p s = refreshStep s := by
  unfold paintThenRefresh
  split
  · exact absurd ‹_› hs
  · rfl

/-- A painting command dangles like REFRESH once it has painted. -/
theorem paintThenRefresh_obeys {p : CmdResult}
    (hp : p.Follows s [.ok, .invalidArgument, .deviceError] (s.devState = .destroyed))
    (hready : subReady s.hostSub s.dev.chState) (hheld : s.hostHeld = true → ¬ channelGone s) :
    Obeys s [.ok, .invalidArgument, .deviceError]
      (s.devState = .destroyed ∨ s.hostSub = .enable ∧ s.devState = .live ∧ s.dev.chState = .deleted)
      (paintThenRefresh p s) := by
  by_cases hs : s.hostSub = .start
  · rw [paintThenRefresh_of_start hs]
    exact (hp.continueTo _).congr (by simp [hs])
  · rw [paintThenRefresh_of_started p hs]
    refine (refreshStep_obeys hready hheld).congr (or_congr_right ⟨fun h => ⟨?_, h⟩, And.right⟩)
    exact by_contra fun he => subReady_not_deleted hready hs he h.2

/-- The device guard answers INVALID_ARGUMENT before CREATE and dangles after DESTROY (60_exceptions.md R131). -/
theorem withDevice_follows {k : CmdResult} (harg : .invalidArgument ∈ cs)
    (hk : s.devState = .live → k.Follows s cs (s.devState = .destroyed)) :
    (withDevice s k).Follows s cs (s.devState = .destroyed) := by
  rcases withDevice_cases s k with ⟨hl, e⟩ | ⟨hl, e⟩ | ⟨hl, e⟩ <;> rw [e]
  · exact ⟨by simp [hl], harg, rfl, rfl⟩
  · exact ⟨hl, rfl⟩
  · exact hk hl

/-- Past the device guard a command that asks nothing of the channel does not dangle. -/
theorem CmdResult.Follows.of_live {t : State} {c : ResultCode} (hl : s.devState = .live) (hc : c ∈ cs)
    (hn : t.hostPos = s.hostPos) (hd : t.faultDangling = s.faultDangling) :
    (CmdResult.done c t).Follows s cs (s.devState = .destroyed) :=
  ⟨by simp [hl], hc, hn, hd⟩

end

/-! ## Every command -/

/-- A host command answers one of its codes and dangles exactly where R127 says, at every sub-step it can be at. -/
theorem exec_obeys {i : Instr} {s : State} (hi : i.hostIssuable = true) (hready : subReady s.hostSub s.dev.chState)
    (hheld : s.hostHeld = true → ¬ channelGone s) : Obeys s (mayReturn i) (danglesIn i s) (exec i s) := by
  cases i with
  | create n p =>
    rw [exec_create]
    split_ifs
    · exact .returnCode (by simp [mayReturn]) id rfl
    · exact .stay rfl (by simp [danglesIn])
    · exact .returnCode (by simp [mayReturn]) id rfl
    · exact .returnCode (by simp [mayReturn]) id (by simp)
    · exact .returnCode (by simp [mayReturn]) id (by simp)
  | setPixel n r g b =>
    refine (withDevice_follows (by simp [mayReturn]) fun hl => ?_).finish
    split
    · exact .of_live hl (by simp [mayReturn]) rfl rfl
    · exact .of_live hl (by simp [mayReturn]) rfl rfl
  | setAllPixels | clear =>
    exact paintThenRefresh_obeys (withDevice_follows (by simp) fun hl => .of_live hl (by simp) rfl rfl) hready hheld
  | setColour c =>
    refine paintThenRefresh_obeys (withDevice_follows (by simp) fun hl => ?_) hready hheld
    split
    · exact .of_live hl (by simp) rfl rfl
    · exact .of_live hl (by simp) rfl rfl
  | refresh => exact refreshStep_obeys hready hheld
  | destroy =>
    refine (withDevice_follows (by simp [mayReturn]) fun hl => ?_).finish
    split
    · exact .of_live hl (by simp [mayReturn]) rfl rfl
    · exact .of_live hl (by simp [mayReturn]) rfl rfl
    · rcases withDriver_cases s fun t => .done .ok t.releaseDevice with ⟨-, e⟩ | ⟨-, e⟩ <;> rw [e]
      · exact .of_live hl (by simp [mayReturn]) (by simp) (by simp)
      · exact .of_live hl (by simp [mayReturn]) (by simp) (by simp)
    · exact .of_live hl (by simp [mayReturn]) rfl rfl
  | encReset =>
    refine (withDevice_follows (by simp [mayReturn]) fun hl => ?_).finish
    split
    · exact .of_live hl (by simp [mayReturn]) rfl rfl
    · exact .of_live hl (by simp [mayReturn]) rfl rfl
  | chEnable => exact (chEnable_follows s).finish
  | chTransmit l => exact (chTransmit_follows l (by simp [mayReturn]) (by simp [mayReturn])).finish
  | chWait w => exact (chWait_follows w (by simp [mayReturn]) (by simp [mayReturn]) hheld).finish
  | chDisable => exact (chDisable_follows s).finish
  | chDelete => exact (chDelete_follows s).finish
  | encode | bytesEncode | copyEncode | engChunk | engEmit | engDone => simp [Instr.hostIssuable] at hi

/-- An internal operation changes the device, the wire and the draws to come, and nothing else. -/
theorem exec_internal_rest {i : Instr} {s t : State} (hi : i.hostIssuable = false) (h : exec i s = .next t) :
    ∃ d w js n, t = { s with dev := d, wire := w, inputs := js, drawCount := n } := by
  have engine (u : Turn) (hu : u ≠ .host) (h : runTurn u s = .next t) :
      ∃ d w js n, t = { s with dev := d, wire := w, inputs := js, drawCount := n } := by
    obtain ⟨d, es, js, n, hframe⟩ := (engineTurn_cases hu h).frame
    exact ⟨d, _, js, n, hframe⟩
  cases i with
  | encode f =>
    obtain ⟨e, c, k, b, hframe⟩ := encodeChunk_frame f s
    rw [runEncode_next h, hframe]
    exact ⟨_, _, _, _, rfl⟩
  | bytesEncode f =>
    rw [runEncode_next h, (bytesEncode_spec f s).2.2]
    exact ⟨_, _, _, _, rfl⟩
  | copyEncode f =>
    rw [runEncode_next h, copyEncode]
    split <;> exact ⟨_, _, _, _, rfl⟩
  | engChunk => exact engine .engChunk nofun h
  | engEmit => exact engine .engEmit nofun h
  | engDone => exact engine .engDone nofun h
  | _ => simp [Instr.hostIssuable] at hi

/-- No internal operation is in the table of R127. -/
theorem not_danglesIn_of_internal {i : Instr} (hi : i.hostIssuable = false) (s : State) : ¬ danglesIn i s := by
  cases i with
  | encode | bytesEncode | copyEncode | engChunk | engEmit | engDone => exact id
  | _ => simp [Instr.hostIssuable] at hi

/-- Settles O17: under the invariant the command is at a sub-step it can be at. -/
theorem commandsReturnListedCodes : Obligations.CommandsReturnListedCodes := by
  unfold Obligations.CommandsReturnListedCodes
  intro i s t hs hi h hpos
  obtain ⟨w, -, hd⟩ := State.currentCommand_eq_some hi
  have hheld : s.hostHeld = true → ¬ channelGone s := fun hh => by
    obtain ⟨hl, hc | hc, -⟩ := hs.held hh <;> simp [channelGone, hl, hc]
  obtain ⟨u, hu, hcode, -⟩ := exec_obeys (decodeHost_hostIssuable hd) hs.ready hheld
  obtain rfl : t = u := by simpa [h] using hu
  exact hcode hpos

/-- Settles O18: a host command as R127 says, at a sub-step that asks nothing of the channel; an internal operation
never. -/
theorem danglingExactly : Obligations.DanglingExactly := by
  unfold Obligations.DanglingExactly
  intro i s hh hd hs
  cases hi : i.hostIssuable with
  | true =>
    have hready : subReady s.hostSub s.dev.chState := by rcases hs with hs | hs <;> rw [hs] <;> trivial
    obtain ⟨t, ht, -, hdangle⟩ := exec_obeys hi hready (by simp [hh])
    simpa [ht, hd] using hdangle
  | false =>
    refine iff_of_false ?_ (not_danglesIn_of_internal hi s)
    rintro ⟨t, h, hdangle⟩
    obtain ⟨d, w, js, n, rfl⟩ := exec_internal_rest hi h
    simp [hd] at hdangle

end Sys2Proof.Machine
end

section
/-! SUPPORT. The family of 70_reset_and_hazards.md: power-on reset (R142), what CREATE initialises (R143) and the end of
a run (R156). -/

namespace Sys2Proof.Machine

/-! ## FAULT (10_state.md R24) -/

/-- FAULT is a function of its three bits. -/
theorem faultWord_congr {s t : State} (hr : t.faultRace = s.faultRace) (hd : t.faultDangling = s.faultDangling)
    (hf : t.faultRefused = s.faultRefused) : faultWord t = faultWord s := by
  rw [faultWord, hr, hd, hf, faultWord]

/-- FAULT = 0 exactly if none of its bits is set (10_state.md R24). -/
theorem faultWord_eq_zero_iff {s : State} : faultWord s = 0#32 ↔ s.noFault = true := by
  have bits : ∀ a b c : Bool,
      0#29 ++ BitVec.ofBool c ++ BitVec.ofBool b ++ BitVec.ofBool a = 0#32 ↔ (!a && !b && !c) = true := by decide
  exact bits s.faultRace s.faultDangling s.faultRefused

/-! ## Power-on reset (70_reset_and_hazards.md R142) -/

/-- Where no device is LIVE, a pin rests at 0 (42_transmit_channel.md R107). -/
theorem State.idleLevel_of_not_live {s : State} (h : s.devState ≠ .live) (pin : Half) : s.idleLevel pin = false := by
  simp [State.idleLevel_eq, h]

/-- Settles O6: STATUS, FAULT and the pin's level by their own laws, every other element as reset writes it. -/
theorem powerOnValues : Obligations.PowerOnValues := by
  unfold Obligations.PowerOnValues
  have hresult : resultWord .ok = 0#32 := by decide
  exact ⟨rfl, fun p => ⟨hresult, statusWord_resetOn p, faultWord_eq_zero_iff.mpr rfl, rfl, rfl, rfl, rfl, rfl, rfl, rfl,
    rfl, rfl, rfl, rfl, rfl, rfl, rfl, rfl, State.idleLevel_of_not_live nofun⟩⟩

/-! ## CREATE initialises the device (70_reset_and_hazards.md R143) -/

/-- A CREATE that passes its checks, and whose allocation does not fail, commits the device. -/
theorem exec_create_accepted {n p : Half} {s : State} (hargs : ¬ createArgsBad n p s) (hrgb : pixelFormat s.cfg ≠ 1#2)
    (hcfg : ¬ createCfgBad s) (halloc : s.allocFails.1 = false) :
    exec (.create n p) s = .next ((s.allocFails.2.createDevice n p).returnCode .ok) := by
  rw [exec_create, if_neg hargs, if_neg hrgb, if_neg hcfg, if_neg (Bool.eq_false_iff.mp halloc)]

/-- The buffer of a new device reads as the drawn bytes. -/
theorem State.createDevice_read (s : State) (n p : Half) {j : Nat} (hj : j < 3 * n.toNat) :
    Memory.read (s.createDevice n p).mem j = (s.drawBytes (3 * n.toNat)).1.getD j 0#8 := by
  have hlen : j < (s.drawBytes (3 * n.toNat)).1.length := by rwa [State.drawBytes_length]
  rw [State.createDevice_mem, List.getD_eq_getElem _ _ hlen]
  simpa using Memory.read_writeBytes_inside [] 0 _ j hlen

/-- Beyond the buffer of a new device every byte reads 0. -/
theorem State.createDevice_read_beyond (s : State) (n p : Half) {j : Nat} (hj : 3 * n.toNat ≤ j) :
    Memory.read (s.createDevice n p).mem j = 0#8 :=
  Memory.read_writeBytes_outside [] 0 _ (.inr (by simpa using hj))

/-- Settles O52: past the checks CREATE commits on the state after the allocation draw, which keeps FAULT, the CFG
registers and the wire. -/
theorem createInitialises : Obligations.CreateInitialises := by
  unfold Obligations.CreateInitialises
  intro n p s hlive hn hvalid hbound hformat hblock hqueue hclk hdur halloc
  have hargs : ¬ createArgsBad n p s := by simp [createArgsBad, hlive, hn, hvalid, hbound]
  have hpixel : pixelFormat s.cfg = 0#2 := hformat
  have hcfg : ¬ createCfgBad s := by
    rw [createCfgBad, ← all_durationOk_eq_false_iff]
    simp [hpixel, hblock, hqueue, hclk, hdur]
  refine ⟨_, exec_create_accepted hargs (by simp [hpixel]) hcfg halloc, ?_⟩
  have hdev : ((s.allocFails.2.createDevice n p).returnCode .ok).dev = createdDevice n p s.cfg := by simp
  rw [hdev]
  refine ⟨rfl, rfl, rfl, rfl, rfl, rfl, rfl, rfl, rfl, rfl, rfl, rfl, rfl, rfl, rfl, rfl,
    fun j => State.createDevice_read _ n p, fun j => State.createDevice_read_beyond _ n p,
    faultWord_congr ?_ ?_ ?_, ?_, ?_, ?_⟩ <;> simp

/-! ## The end of a run (70_reset_and_hazards.md R156) -/

/-- The end of a run in the words of R156. -/
theorem State.ended_iff {s : State} :
    s.ended = true ↔
      s.hostPos = s.program.length ∧ s.hostSub = .start ∧ s.hostHeld = false ∧
      ¬ (s.devState = .live ∧ s.dev.chState = .transmitting) ∧ faultWord s = 0#32 := by
  rw [faultWord_eq_zero_iff, ← State.transmitting_iff, Bool.not_eq_true]
  simp [State.ended, and_assoc]

/-- An engine turn is enabled in a transaction only. -/
theorem State.transmitting_of_turnEnabled {s : State} {u : Turn} (hu : u ≠ .host) (h : s.turnEnabled u = true) :
    s.transmitting = true := by
  cases u with
  | host => exact absurd rfl hu
  | engChunk => exact (State.chunkEnabled_iff.mp h).1
  | engEmit =>
    obtain ⟨hl, hc, -⟩ := State.emitEnabled_iff.mp h
    exact State.transmitting_iff.mpr ⟨hl, hc⟩
  | engDone =>
    obtain ⟨hl, hc, -⟩ := State.doneEnabled_iff.mp h
    exact State.transmitting_iff.mpr ⟨hl, hc⟩

/-- At the end of a run neither agent has an enabled turn. -/
theorem State.turnEnabled_of_ended {s : State} (h : s.ended = true) (u : Turn) : s.turnEnabled u = false := by
  obtain ⟨hpos, -, -, hidle, -⟩ := State.ended_iff.mp h
  refine Bool.eq_false_iff.mpr fun hen => ?_
  by_cases hu : u = .host
  · subst hu
    exact absurd hpos (State.hostPos_lt_of_hostEnabled hen).ne
  · exact hidle (State.transmitting_iff.mp (State.transmitting_of_turnEnabled hu hen))

/-- The machine stops because the run has ended exactly at the end of a run. -/
theorem State.stopReason_eq_runEnded_iff {s : State} : s.stopReason = .runEnded ↔ s.ended = true := by
  unfold State.stopReason
  split_ifs with hended <;> simp [hended]

/-- A step answers that the run has ended exactly at the end of a run. -/
theorem step_eq_runEnded_iff {s : State} : step s = .fault .runEnded ↔ s.ended = true := by
  obtain ⟨t, ht⟩ | ⟨-, hstop⟩ := step_next_or_stop s
  · have hrun : s.ended = false := Bool.eq_false_iff.mpr fun hended => by
      obtain ⟨u, -, hen, -⟩ := step_cases ht
      simp [State.turnEnabled_of_ended hended u] at hen
    simp [ht, hrun]
  · rw [hstop, Host.Outcome.fault.injEq, State.stopReason_eq_runEnded_iff]

/-- The states with an observation are those in which a run ends. -/
theorem State.observation_isSome_iff {s : State} : s.observation.isSome = true ↔ s.ended = true := by
  unfold State.observation
  split_ifs with hended <;> simp [hended]

/-- Settles O21: the step and the observation both say that the run has ended. -/
theorem endOfRun : Obligations.EndOfRun := by
  unfold Obligations.EndOfRun
  intro s
  rw [step_eq_runEnded_iff]
  exact ⟨State.ended_iff, State.observation_isSome_iff⟩

end Sys2Proof.Machine
end
